-- ==== Sys2Proof/Word.lean ====
section
/-! DEFINITION. The word types of the 8088 block, the names of its registers and segments, and the operand forms an
instruction can carry. -/

namespace Sys2Proof

/-- A byte: memory data, 8-bit registers, I/O ports (20_memory.md R74). -/
abbrev Byte := BitVec 8

/-- A 16-bit word: registers, offsets, segment values (10_state.md R21, R24). -/
abbrev Word := BitVec 16

/-- A 32-bit value: `last_effective_address` and the host's physical addresses (10_state.md R34, 20_memory.md R64). -/
abbrev DWord := BitVec 32

/-- A 20-bit physical address (20_memory.md R61). -/
abbrev Phys := BitVec 20

/-- The 16-bit general registers, in the encoding order of `R16[n]` (10_state.md R21). -/
inductive Reg16 where
  | ax | cx | dx | bx | sp | bp | si | di
deriving DecidableEq, Repr

/-- The 8-bit registers, in the encoding order of `R8[n]` (10_state.md R22). -/
inductive Reg8 where
  | al | cl | dl | bl | ah | ch | dh | bh
deriving DecidableEq, Repr

/-- The segment selectors, in the encoding order of `SREG[n]` (10_state.md R24). -/
inductive Seg where
  | es | cs | ss | ds
deriving DecidableEq, Repr

/-- The eight register sums a ModRM memory operand can have, in the order of `rm` (30_encoding.md R110). -/
inductive EaBase where
  | bxSi | bxDi | bpSi | bpDi | si | di | bp | bx
deriving DecidableEq, Repr

/-- The displacement of a ModRM memory operand: none (mod 00), a byte (mod 01) or a word (mod 10)
(30_encoding.md R109, R113). -/
inductive Disp where
  | none
  | d8 (d : Byte)
  | d16 (d : Word)
deriving DecidableEq, Repr

/-- A memory operand (mod ≠ 11): a 16-bit direct offset (mod 00, rm 110), or a base with a displacement
(30_encoding.md R109, R110). `base .bp .none` has no encoding: see `MemOp.wf`. -/
inductive MemOp where
  | direct (off : Word)
  | base (b : EaBase) (d : Disp)
deriving DecidableEq, Repr

/-- An r/m operand: a register of the file `R` (mod 11) or a memory operand (30_encoding.md R109). -/
inductive Rm (R : Type) where
  | reg (r : R)
  | mem (m : MemOp)
deriving DecidableEq, Repr

/-- `Eb`: a byte register or memory operand (00_scope.md R12). -/
abbrev Rm8 := Rm Reg8

/-- `Ew`: a word register or memory operand (00_scope.md R12). -/
abbrev Rm16 := Rm Reg16

end Sys2Proof
end

