-- ==== Sys2Proof/Machine/Bits.lean ====
section
/-! DEFINITION. Bit-field, byte-order and sign-extension helpers (00_scope.md R6, 20_memory.md R72). -/

namespace Sys2Proof

/-- The low byte of a word. -/
def lo8 (w : Word) : Byte := w.extractLsb' 0 8

/-- The high byte of a word. -/
def hi8 (w : Word) : Byte := w.extractLsb' 8 8

/-- The word whose high byte is `hi` and low byte `lo` (`hi ++ lo`, 00_scope.md R6). -/
def join16 (hi lo : Byte) : Word := hi ++ lo

/-- `sext_16` of a byte (00_scope.md R6). -/
def sext16 (b : Byte) : Word := b.signExtend 16

/-- `zext_16` of a byte (00_scope.md R6). -/
def zext16 (b : Byte) : Word := b.setWidth 16

/-- A field of three bits of a byte, from bit `lo` up. -/
def field3 (b : Byte) (lo : Nat) : BitVec 3 := b.extractLsb' lo 3

end Sys2Proof
end

