-- ==== Sys2Proof/Syntax.lean ====
section
/-! DEFINITION. The instructions: one constructor per row of spec/opcode_table.json, in the table's order but for the six flag instructions, which stand last. The rows for
the prefixes (30_encoding.md R104) are constructors too: a prefix sets a part of the context of the instruction that
follows it (46_processor_control.md R439, R441; 44_string.md R346). An `Eb` or `Ew` operand is called `e`, a `Gb` or `Gw`
operand `g`, an immediate `i`, a displacement `d`, a direct offset `o`. -/

namespace Sys2Proof

/-- The instruction set (30_encoding.md R117 to R126, R130). The comment gives the encoding and the rule. -/
inductive Instr where
  /-- `ADD Eb,Gb` (00, R253). -/
  | addEbGb (e : Rm8) (g : Reg8)
  /-- `ADD Ew,Gw` (01, R253). -/
  | addEwGw (e : Rm16) (g : Reg16)
  /-- `ADD Gb,Eb` (02, R253). -/
  | addGbEb (g : Reg8) (e : Rm8)
  /-- `ADD Gw,Ew` (03, R253). -/
  | addGwEw (g : Reg16) (e : Rm16)
  /-- `ADD AL,Ib` (04, R253). -/
  | addAlIb (i : Byte)
  /-- `ADD AX,Iw` (05, R253). -/
  | addAxIw (i : Word)
  /-- `OR Eb,Gb` (08, R301). -/
  | orEbGb (e : Rm8) (g : Reg8)
  /-- `OR Ew,Gw` (09, R301). -/
  | orEwGw (e : Rm16) (g : Reg16)
  /-- `OR Gb,Eb` (0A, R301). -/
  | orGbEb (g : Reg8) (e : Rm8)
  /-- `OR Gw,Ew` (0B, R301). -/
  | orGwEw (g : Reg16) (e : Rm16)
  /-- `OR AL,Ib` (0C, R301). -/
  | orAlIb (i : Byte)
  /-- `OR AX,Iw` (0D, R301). -/
  | orAxIw (i : Word)
  /-- `ADC Eb,Gb` (10, R254). -/
  | adcEbGb (e : Rm8) (g : Reg8)
  /-- `ADC Ew,Gw` (11, R254). -/
  | adcEwGw (e : Rm16) (g : Reg16)
  /-- `ADC Gb,Eb` (12, R254). -/
  | adcGbEb (g : Reg8) (e : Rm8)
  /-- `ADC Gw,Ew` (13, R254). -/
  | adcGwEw (g : Reg16) (e : Rm16)
  /-- `ADC AL,Ib` (14, R254). -/
  | adcAlIb (i : Byte)
  /-- `ADC AX,Iw` (15, R254). -/
  | adcAxIw (i : Word)
  /-- `SBB Eb,Gb` (18, R256). -/
  | sbbEbGb (e : Rm8) (g : Reg8)
  /-- `SBB Ew,Gw` (19, R256). -/
  | sbbEwGw (e : Rm16) (g : Reg16)
  /-- `SBB Gb,Eb` (1A, R256). -/
  | sbbGbEb (g : Reg8) (e : Rm8)
  /-- `SBB Gw,Ew` (1B, R256). -/
  | sbbGwEw (g : Reg16) (e : Rm16)
  /-- `SBB AL,Ib` (1C, R256). -/
  | sbbAlIb (i : Byte)
  /-- `SBB AX,Iw` (1D, R256). -/
  | sbbAxIw (i : Word)
  /-- `AND Eb,Gb` (20, R300). -/
  | andEbGb (e : Rm8) (g : Reg8)
  /-- `AND Ew,Gw` (21, R300). -/
  | andEwGw (e : Rm16) (g : Reg16)
  /-- `AND Gb,Eb` (22, R300). -/
  | andGbEb (g : Reg8) (e : Rm8)
  /-- `AND Gw,Ew` (23, R300). -/
  | andGwEw (g : Reg16) (e : Rm16)
  /-- `AND AL,Ib` (24, R300). -/
  | andAlIb (i : Byte)
  /-- `AND AX,Iw` (25, R300). -/
  | andAxIw (i : Word)
  /-- `SUB Eb,Gb` (28, R255). -/
  | subEbGb (e : Rm8) (g : Reg8)
  /-- `SUB Ew,Gw` (29, R255). -/
  | subEwGw (e : Rm16) (g : Reg16)
  /-- `SUB Gb,Eb` (2A, R255). -/
  | subGbEb (g : Reg8) (e : Rm8)
  /-- `SUB Gw,Ew` (2B, R255). -/
  | subGwEw (g : Reg16) (e : Rm16)
  /-- `SUB AL,Ib` (2C, R255). -/
  | subAlIb (i : Byte)
  /-- `SUB AX,Iw` (2D, R255). -/
  | subAxIw (i : Word)
  /-- `XOR Eb,Gb` (30, R302). -/
  | xorEbGb (e : Rm8) (g : Reg8)
  /-- `XOR Ew,Gw` (31, R302). -/
  | xorEwGw (e : Rm16) (g : Reg16)
  /-- `XOR Gb,Eb` (32, R302). -/
  | xorGbEb (g : Reg8) (e : Rm8)
  /-- `XOR Gw,Ew` (33, R302). -/
  | xorGwEw (g : Reg16) (e : Rm16)
  /-- `XOR AL,Ib` (34, R302). -/
  | xorAlIb (i : Byte)
  /-- `XOR AX,Iw` (35, R302). -/
  | xorAxIw (i : Word)
  /-- `CMP Eb,Gb` (38, R257). -/
  | cmpEbGb (e : Rm8) (g : Reg8)
  /-- `CMP Ew,Gw` (39, R257). -/
  | cmpEwGw (e : Rm16) (g : Reg16)
  /-- `CMP Gb,Eb` (3A, R257). -/
  | cmpGbEb (g : Reg8) (e : Rm8)
  /-- `CMP Gw,Ew` (3B, R257). -/
  | cmpGwEw (g : Reg16) (e : Rm16)
  /-- `CMP AL,Ib` (3C, R257). -/
  | cmpAlIb (i : Byte)
  /-- `CMP AX,Iw` (3D, R257). -/
  | cmpAxIw (i : Word)
  /-- `PUSH ES` (06, R213). -/
  | pushEs
  /-- `POP ES` (07, R216). -/
  | popEs
  /-- `ES: (segment override)` (26, R441). -/
  | segEs
  /-- `PUSH CS` (0E, R213). -/
  | pushCs
  /-- `CS: (segment override)` (2E, R441). -/
  | segCs
  /-- `PUSH SS` (16, R213). -/
  | pushSs
  /-- `POP SS` (17, R216). -/
  | popSs
  /-- `SS: (segment override)` (36, R441). -/
  | segSs
  /-- `PUSH DS` (1E, R213). -/
  | pushDs
  /-- `POP DS` (1F, R216). -/
  | popDs
  /-- `DS: (segment override)` (3E, R441). -/
  | segDs
  /-- `DAA` (27, R265). -/
  | daa
  /-- `DAS` (2F, R266). -/
  | das
  /-- `AAA` (37, R267). -/
  | aaa
  /-- `AAS` (3F, R268). -/
  | aas
  /-- `INC r16` (40, R258). -/
  | incR16 (r : Reg16)
  /-- `DEC r16` (48, R259). -/
  | decR16 (r : Reg16)
  /-- `PUSH r16` (50, R212). -/
  | pushR16 (r : Reg16)
  /-- `POP r16` (58, R215). -/
  | popR16 (r : Reg16)
  /-- `JO Jb` (70, R386). -/
  | joJb (d : Byte)
  /-- `JNO Jb` (71, R387). -/
  | jnoJb (d : Byte)
  /-- `JB Jb` (72, R388). -/
  | jbJb (d : Byte)
  /-- `JAE Jb` (73, R389). -/
  | jaeJb (d : Byte)
  /-- `JE Jb` (74, R390). -/
  | jeJb (d : Byte)
  /-- `JNE Jb` (75, R391). -/
  | jneJb (d : Byte)
  /-- `JBE Jb` (76, R392). -/
  | jbeJb (d : Byte)
  /-- `JA Jb` (77, R393). -/
  | jaJb (d : Byte)
  /-- `JS Jb` (78, R394). -/
  | jsJb (d : Byte)
  /-- `JNS Jb` (79, R395). -/
  | jnsJb (d : Byte)
  /-- `JP Jb` (7A, R396). -/
  | jpJb (d : Byte)
  /-- `JNP Jb` (7B, R397). -/
  | jnpJb (d : Byte)
  /-- `JL Jb` (7C, R398). -/
  | jlJb (d : Byte)
  /-- `JGE Jb` (7D, R399). -/
  | jgeJb (d : Byte)
  /-- `JLE Jb` (7E, R400). -/
  | jleJb (d : Byte)
  /-- `JG Jb` (7F, R401). -/
  | jgJb (d : Byte)
  /-- `ADD Eb,Ib` (80 /0, R253). -/
  | addEbIb (e : Rm8) (i : Byte)
  /-- `ADD Ew,Iw` (81 /0, R253). -/
  | addEwIw (e : Rm16) (i : Word)
  /-- `ADD Eb,Ib (82 alias)` (82 /0, R253). -/
  | addEbIb82 (e : Rm8) (i : Byte)
  /-- `ADD Ew,Ib (sign-extended)` (83 /0, R253). -/
  | addEwIbSx (e : Rm16) (i : Byte)
  /-- `OR Eb,Ib` (80 /1, R301). -/
  | orEbIb (e : Rm8) (i : Byte)
  /-- `OR Ew,Iw` (81 /1, R301). -/
  | orEwIw (e : Rm16) (i : Word)
  /-- `ADC Eb,Ib` (80 /2, R254). -/
  | adcEbIb (e : Rm8) (i : Byte)
  /-- `ADC Ew,Iw` (81 /2, R254). -/
  | adcEwIw (e : Rm16) (i : Word)
  /-- `ADC Eb,Ib (82 alias)` (82 /2, R254). -/
  | adcEbIb82 (e : Rm8) (i : Byte)
  /-- `ADC Ew,Ib (sign-extended)` (83 /2, R254). -/
  | adcEwIbSx (e : Rm16) (i : Byte)
  /-- `SBB Eb,Ib` (80 /3, R256). -/
  | sbbEbIb (e : Rm8) (i : Byte)
  /-- `SBB Ew,Iw` (81 /3, R256). -/
  | sbbEwIw (e : Rm16) (i : Word)
  /-- `SBB Eb,Ib (82 alias)` (82 /3, R256). -/
  | sbbEbIb82 (e : Rm8) (i : Byte)
  /-- `SBB Ew,Ib (sign-extended)` (83 /3, R256). -/
  | sbbEwIbSx (e : Rm16) (i : Byte)
  /-- `AND Eb,Ib` (80 /4, R300). -/
  | andEbIb (e : Rm8) (i : Byte)
  /-- `AND Ew,Iw` (81 /4, R300). -/
  | andEwIw (e : Rm16) (i : Word)
  /-- `SUB Eb,Ib` (80 /5, R255). -/
  | subEbIb (e : Rm8) (i : Byte)
  /-- `SUB Ew,Iw` (81 /5, R255). -/
  | subEwIw (e : Rm16) (i : Word)
  /-- `SUB Eb,Ib (82 alias)` (82 /5, R255). -/
  | subEbIb82 (e : Rm8) (i : Byte)
  /-- `SUB Ew,Ib (sign-extended)` (83 /5, R255). -/
  | subEwIbSx (e : Rm16) (i : Byte)
  /-- `XOR Eb,Ib` (80 /6, R302). -/
  | xorEbIb (e : Rm8) (i : Byte)
  /-- `XOR Ew,Iw` (81 /6, R302). -/
  | xorEwIw (e : Rm16) (i : Word)
  /-- `CMP Eb,Ib` (80 /7, R257). -/
  | cmpEbIb (e : Rm8) (i : Byte)
  /-- `CMP Ew,Iw` (81 /7, R257). -/
  | cmpEwIw (e : Rm16) (i : Word)
  /-- `CMP Eb,Ib (82 alias)` (82 /7, R257). -/
  | cmpEbIb82 (e : Rm8) (i : Byte)
  /-- `CMP Ew,Ib (sign-extended)` (83 /7, R257). -/
  | cmpEwIbSx (e : Rm16) (i : Byte)
  /-- `TEST Eb,Gb` (84, R303). -/
  | testEbGb (e : Rm8) (g : Reg8)
  /-- `TEST Ew,Gw` (85, R303). -/
  | testEwGw (e : Rm16) (g : Reg16)
  /-- `XCHG Eb,Gb` (86, R218). -/
  | xchgEbGb (e : Rm8) (g : Reg8)
  /-- `XCHG Ew,Gw` (87, R218). -/
  | xchgEwGw (e : Rm16) (g : Reg16)
  /-- `MOV Eb,Gb` (88, R201). -/
  | movEbGb (e : Rm8) (g : Reg8)
  /-- `MOV Ew,Gw` (89, R201). -/
  | movEwGw (e : Rm16) (g : Reg16)
  /-- `MOV Gb,Eb` (8A, R202). -/
  | movGbEb (g : Reg8) (e : Rm8)
  /-- `MOV Gw,Ew` (8B, R202). -/
  | movGwEw (g : Reg16) (e : Rm16)
  /-- `MOV Ew,Sw` (8C, R207). -/
  | movEwSw (e : Rm16) (sg : Seg)
  /-- `LEA Gw,M` (8D, R222). -/
  | leaGwM (g : Reg16) (m : MemOp)
  /-- `MOV ES,Ew` (8E /0, R208). -/
  | movEsEw (e : Rm16)
  /-- `MOV SS,Ew` (8E /2, R208). -/
  | movSsEw (e : Rm16)
  /-- `MOV DS,Ew` (8E /3, R208). -/
  | movDsEw (e : Rm16)
  /-- `POP Ew` (8F /0, R217). -/
  | popEw (e : Rm16)
  /-- `NOP` (90, R220). -/
  | nop
  /-- `XCHG AX,r16` (90, R219). -/
  | xchgAxR16 (r : Reg16)
  /-- `CBW` (98, R271). -/
  | cbw
  /-- `CWD` (99, R272). -/
  | cwd
  /-- `CALL Ap` (9A, R378). -/
  | callAp (o : Word) (sg : Word)
  /-- `WAIT` (9B, R437). -/
  | wait
  /-- `PUSHF` (9C, R227). -/
  | pushf
  /-- `POPF` (9D, R228). -/
  | popf
  /-- `SAHF` (9E, R226). -/
  | sahf
  /-- `LAHF` (9F, R225). -/
  | lahf
  /-- `MOV AL,Ob` (A0, R205). -/
  | movAlOb (o : Word)
  /-- `MOV AX,Ow` (A1, R205). -/
  | movAxOw (o : Word)
  /-- `MOV Ob,AL` (A2, R206). -/
  | movObAl (o : Word)
  /-- `MOV Ow,AX` (A3, R206). -/
  | movOwAx (o : Word)
  /-- `MOVSB` (A4, R341). -/
  | movsb
  /-- `MOVSW` (A5, R341). -/
  | movsw
  /-- `CMPSB` (A6, R342). -/
  | cmpsb
  /-- `CMPSW` (A7, R342). -/
  | cmpsw
  /-- `TEST AL,Ib` (A8, R303). -/
  | testAlIb (i : Byte)
  /-- `TEST AX,Iw` (A9, R303). -/
  | testAxIw (i : Word)
  /-- `STOSB` (AA, R345). -/
  | stosb
  /-- `STOSW` (AB, R345). -/
  | stosw
  /-- `LODSB` (AC, R344). -/
  | lodsb
  /-- `LODSW` (AD, R344). -/
  | lodsw
  /-- `SCASB` (AE, R343). -/
  | scasb
  /-- `SCASW` (AF, R343). -/
  | scasw
  /-- `MOV r8,Ib` (B0, R204). -/
  | movR8Ib (r : Reg8) (i : Byte)
  /-- `MOV r16,Iw` (B8, R204). -/
  | movR16Iw (r : Reg16) (i : Word)
  /-- `RET Iw` (C2, R381). -/
  | retIw (i : Word)
  /-- `RET` (C3, R380). -/
  | ret
  /-- `LES Gw,Mp` (C4, R224). -/
  | lesGwMp (g : Reg16) (m : MemOp)
  /-- `LDS Gw,Mp` (C5, R223). -/
  | ldsGwMp (g : Reg16) (m : MemOp)
  /-- `MOV Eb,Ib` (C6 /0, R203). -/
  | movEbIb (e : Rm8) (i : Byte)
  /-- `MOV Ew,Iw` (C7 /0, R203). -/
  | movEwIw (e : Rm16) (i : Word)
  /-- `RETF Iw` (CA, R383). -/
  | retfIw (i : Word)
  /-- `RETF` (CB, R382). -/
  | retf
  /-- `INT 3` (CC, R407). -/
  | int3
  /-- `INT Ib` (CD, R406). -/
  | intIb (i : Byte)
  /-- `INTO` (CE, R408). -/
  | into
  /-- `IRET` (CF, R409). -/
  | iret
  /-- `ROL Eb,1` (D0 /0, R306). -/
  | rolEb1 (e : Rm8)
  /-- `ROR Eb,1` (D0 /1, R307). -/
  | rorEb1 (e : Rm8)
  /-- `RCL Eb,1` (D0 /2, R308). -/
  | rclEb1 (e : Rm8)
  /-- `RCR Eb,1` (D0 /3, R309). -/
  | rcrEb1 (e : Rm8)
  /-- `SHL Eb,1` (D0 /4, R310). -/
  | shlEb1 (e : Rm8)
  /-- `SHR Eb,1` (D0 /5, R311). -/
  | shrEb1 (e : Rm8)
  /-- `SAR Eb,1` (D0 /7, R312). -/
  | sarEb1 (e : Rm8)
  /-- `ROL Ew,1` (D1 /0, R306). -/
  | rolEw1 (e : Rm16)
  /-- `ROR Ew,1` (D1 /1, R307). -/
  | rorEw1 (e : Rm16)
  /-- `RCL Ew,1` (D1 /2, R308). -/
  | rclEw1 (e : Rm16)
  /-- `RCR Ew,1` (D1 /3, R309). -/
  | rcrEw1 (e : Rm16)
  /-- `SHL Ew,1` (D1 /4, R310). -/
  | shlEw1 (e : Rm16)
  /-- `SHR Ew,1` (D1 /5, R311). -/
  | shrEw1 (e : Rm16)
  /-- `SAR Ew,1` (D1 /7, R312). -/
  | sarEw1 (e : Rm16)
  /-- `ROL Eb,CL` (D2 /0, R306). -/
  | rolEbCl (e : Rm8)
  /-- `ROR Eb,CL` (D2 /1, R307). -/
  | rorEbCl (e : Rm8)
  /-- `RCL Eb,CL` (D2 /2, R308). -/
  | rclEbCl (e : Rm8)
  /-- `RCR Eb,CL` (D2 /3, R309). -/
  | rcrEbCl (e : Rm8)
  /-- `SHL Eb,CL` (D2 /4, R310). -/
  | shlEbCl (e : Rm8)
  /-- `SHR Eb,CL` (D2 /5, R311). -/
  | shrEbCl (e : Rm8)
  /-- `SAR Eb,CL` (D2 /7, R312). -/
  | sarEbCl (e : Rm8)
  /-- `ROL Ew,CL` (D3 /0, R306). -/
  | rolEwCl (e : Rm16)
  /-- `ROR Ew,CL` (D3 /1, R307). -/
  | rorEwCl (e : Rm16)
  /-- `RCL Ew,CL` (D3 /2, R308). -/
  | rclEwCl (e : Rm16)
  /-- `RCR Ew,CL` (D3 /3, R309). -/
  | rcrEwCl (e : Rm16)
  /-- `SHL Ew,CL` (D3 /4, R310). -/
  | shlEwCl (e : Rm16)
  /-- `SHR Ew,CL` (D3 /5, R311). -/
  | shrEwCl (e : Rm16)
  /-- `SAR Ew,CL` (D3 /7, R312). -/
  | sarEwCl (e : Rm16)
  /-- `AAM Ib` (D4, R269). -/
  | aamIb (i : Byte)
  /-- `AAD Ib` (D5, R270). -/
  | aadIb (i : Byte)
  /-- `XLAT` (D7, R221). -/
  | xlat
  /-- `ESC` (D8, R438). -/
  | esc (x : BitVec 3) (y : BitVec 3) (e : Rm16)
  /-- `LOOPNE Jb` (E0, R404). -/
  | loopneJb (d : Byte)
  /-- `LOOPE Jb` (E1, R403). -/
  | loopeJb (d : Byte)
  /-- `LOOP Jb` (E2, R402). -/
  | loopJb (d : Byte)
  /-- `JCXZ Jb` (E3, R405). -/
  | jcxzJb (d : Byte)
  /-- `IN AL,Ib` (E4, R457). -/
  | inAlIb (i : Byte)
  /-- `IN AX,Ib` (E5, R457). -/
  | inAxIb (i : Byte)
  /-- `OUT Ib,AL` (E6, R459). -/
  | outIbAl (i : Byte)
  /-- `OUT Ib,AX` (E7, R459). -/
  | outIbAx (i : Byte)
  /-- `CALL Jw` (E8, R376). -/
  | callJw (d : Word)
  /-- `JMP Jw` (E9, R372). -/
  | jmpJw (d : Word)
  /-- `JMP Ap` (EA, R374). -/
  | jmpAp (o : Word) (sg : Word)
  /-- `JMP Jb` (EB, R371). -/
  | jmpJb (d : Byte)
  /-- `IN AL,DX` (EC, R458). -/
  | inAlDx
  /-- `IN AX,DX` (ED, R458). -/
  | inAxDx
  /-- `OUT DX,AL` (EE, R460). -/
  | outDxAl
  /-- `OUT DX,AX` (EF, R460). -/
  | outDxAx
  /-- `LOCK` (F0, R439). -/
  | lock
  /-- `REPNE` (F2, R346). -/
  | repne
  /-- `REP/REPE` (F3, R346). -/
  | repe
  /-- `HLT` (F4, R436). -/
  | hlt
  /-- `CMC` (F5, R432). -/
  | cmc
  /-- `TEST Eb,Ib` (F6 /0, R303). -/
  | testEbIb (e : Rm8) (i : Byte)
  /-- `NOT Eb` (F6 /2, R304). -/
  | notEb (e : Rm8)
  /-- `NEG Eb` (F6 /3, R260). -/
  | negEb (e : Rm8)
  /-- `MUL Eb` (F6 /4, R261). -/
  | mulEb (e : Rm8)
  /-- `IMUL Eb` (F6 /5, R262). -/
  | imulEb (e : Rm8)
  /-- `DIV Eb` (F6 /6, R263). -/
  | divEb (e : Rm8)
  /-- `IDIV Eb` (F6 /7, R264). -/
  | idivEb (e : Rm8)
  /-- `TEST Ew,Iw` (F7 /0, R303). -/
  | testEwIw (e : Rm16) (i : Word)
  /-- `NOT Ew` (F7 /2, R304). -/
  | notEw (e : Rm16)
  /-- `NEG Ew` (F7 /3, R260). -/
  | negEw (e : Rm16)
  /-- `MUL Ew` (F7 /4, R261). -/
  | mulEw (e : Rm16)
  /-- `IMUL Ew` (F7 /5, R262). -/
  | imulEw (e : Rm16)
  /-- `DIV Ew` (F7 /6, R263). -/
  | divEw (e : Rm16)
  /-- `IDIV Ew` (F7 /7, R264). -/
  | idivEw (e : Rm16)
  /-- `INC Eb` (FE /0, R258). -/
  | incEb (e : Rm8)
  /-- `DEC Eb` (FE /1, R259). -/
  | decEb (e : Rm8)
  /-- `INC Ew` (FF /0, R258). -/
  | incEw (e : Rm16)
  /-- `DEC Ew` (FF /1, R259). -/
  | decEw (e : Rm16)
  /-- `CALL Ew` (FF /2, R377). -/
  | callEw (e : Rm16)
  /-- `CALL Mp` (FF /3, R379). -/
  | callMp (m : MemOp)
  /-- `JMP Ew` (FF /4, R373). -/
  | jmpEw (e : Rm16)
  /-- `JMP Mp` (FF /5, R375). -/
  | jmpMp (m : MemOp)
  /-- `PUSH Ew` (FF /6, R214). -/
  | pushEw (e : Rm16)
  /-- `CLC` (F8, R430). -/
  | clc
  /-- `STC` (F9, R431). -/
  | stc
  /-- `CLI` (FA, R435). -/
  | cli
  /-- `STI` (FB, R440). -/
  | sti
  /-- `CLD` (FC, R433). -/
  | cld
  /-- `STD` (FD, R434). -/
  | std
deriving DecidableEq, Repr

end Sys2Proof
end

