-- ==== Sys2Proof/WellFormed.lean ====
section
/-! DEFINITION. Which instruction terms have an encoding. Two things can go wrong in a term: a base `BP` with no
displacement (mod 00 with rm 110 is the direct form, 30_encoding.md R109), and XCHG AX,r16 with AX, whose byte 90 is the NOP
row (41_data_transfer.md R219, R220). -/

namespace Sys2Proof

/-- A memory operand has an encoding unless it is `[BP]` with no displacement (30_encoding.md R109, R110). -/
def MemOp.wf (m : MemOp) : Bool := m != .base .bp .none

/-- A register operand is always encodable, a memory operand by `MemOp.wf`. -/
def Rm.wf {R : Type} : Rm R → Bool
  | .reg _ => true
  | .mem m => m.wf

/-- XCHG AX,r16 is in the table for n = 1 to 7 (41_data_transfer.md R219). -/
def xchgAxWf (r : Reg16) : Bool := r != .ax

/-- The instruction terms that have an encoding. -/
def Instr.wf : Instr → Bool
  | .addEbGb e _ | .addGbEb _ e | .orEbGb e _ | .orGbEb _ e | .adcEbGb e _ | .adcGbEb _ e | .sbbEbGb e _
  | .sbbGbEb _ e | .andEbGb e _ | .andGbEb _ e | .subEbGb e _ | .subGbEb _ e | .xorEbGb e _ | .xorGbEb _ e
  | .cmpEbGb e _ | .cmpGbEb _ e | .addEbIb e _ | .addEbIb82 e _ | .orEbIb e _ | .adcEbIb e _ | .adcEbIb82 e _
  | .sbbEbIb e _ | .sbbEbIb82 e _ | .andEbIb e _ | .subEbIb e _ | .subEbIb82 e _ | .xorEbIb e _
  | .cmpEbIb e _ | .cmpEbIb82 e _ | .testEbGb e _ | .xchgEbGb e _ | .movEbGb e _ | .movGbEb _ e
  | .movEbIb e _ | .rolEb1 e | .rorEb1 e | .rclEb1 e | .rcrEb1 e | .shlEb1 e | .shrEb1 e | .sarEb1 e
  | .rolEbCl e | .rorEbCl e | .rclEbCl e | .rcrEbCl e | .shlEbCl e | .shrEbCl e | .sarEbCl e | .testEbIb e _
  | .notEb e | .negEb e | .mulEb e | .imulEb e | .divEb e | .idivEb e | .incEb e | .decEb e => e.wf
  | .addEwGw e _ | .addGwEw _ e | .orEwGw e _ | .orGwEw _ e | .adcEwGw e _ | .adcGwEw _ e | .sbbEwGw e _
  | .sbbGwEw _ e | .andEwGw e _ | .andGwEw _ e | .subEwGw e _ | .subGwEw _ e | .xorEwGw e _ | .xorGwEw _ e
  | .cmpEwGw e _ | .cmpGwEw _ e | .addEwIw e _ | .addEwIbSx e _ | .orEwIw e _ | .adcEwIw e _ | .adcEwIbSx e _
  | .sbbEwIw e _ | .sbbEwIbSx e _ | .andEwIw e _ | .subEwIw e _ | .subEwIbSx e _ | .xorEwIw e _
  | .cmpEwIw e _ | .cmpEwIbSx e _ | .testEwGw e _ | .xchgEwGw e _ | .movEwGw e _ | .movGwEw _ e
  | .movEwSw e _ | .movEsEw e | .movSsEw e | .movDsEw e | .popEw e | .movEwIw e _ | .rolEw1 e | .rorEw1 e
  | .rclEw1 e | .rcrEw1 e | .shlEw1 e | .shrEw1 e | .sarEw1 e | .rolEwCl e | .rorEwCl e | .rclEwCl e
  | .rcrEwCl e | .shlEwCl e | .shrEwCl e | .sarEwCl e | .esc _ _ e | .testEwIw e _ | .notEw e | .negEw e
  | .mulEw e | .imulEw e | .divEw e | .idivEw e | .incEw e | .decEw e | .callEw e | .jmpEw e | .pushEw e => e.wf
  | .leaGwM _ m | .lesGwMp _ m | .ldsGwMp _ m | .callMp m | .jmpMp m => m.wf
  | .xchgAxR16 r => xchgAxWf r
  | .addAlIb _ | .addAxIw _ | .orAlIb _ | .orAxIw _ | .adcAlIb _ | .adcAxIw _ | .sbbAlIb _ | .sbbAxIw _
  | .andAlIb _ | .andAxIw _ | .subAlIb _ | .subAxIw _ | .xorAlIb _ | .xorAxIw _ | .cmpAlIb _ | .cmpAxIw _
  | .pushEs | .popEs | .segEs | .pushCs | .segCs | .pushSs | .popSs | .segSs | .pushDs | .popDs | .segDs
  | .daa | .das | .aaa | .aas | .incR16 _ | .decR16 _ | .pushR16 _ | .popR16 _ | .joJb _ | .jnoJb _ | .jbJb _
  | .jaeJb _ | .jeJb _ | .jneJb _ | .jbeJb _ | .jaJb _ | .jsJb _ | .jnsJb _ | .jpJb _ | .jnpJb _ | .jlJb _
  | .jgeJb _ | .jleJb _ | .jgJb _ | .nop | .cbw | .cwd | .callAp _ _ | .wait | .pushf | .popf | .sahf | .lahf
  | .movAlOb _ | .movAxOw _ | .movObAl _ | .movOwAx _ | .movsb | .movsw | .cmpsb | .cmpsw | .testAlIb _
  | .testAxIw _ | .stosb | .stosw | .lodsb | .lodsw | .scasb | .scasw | .movR8Ib _ _ | .movR16Iw _ _
  | .retIw _ | .ret | .retfIw _ | .retf | .int3 | .intIb _ | .into | .iret | .aamIb _ | .aadIb _ | .xlat
  | .loopneJb _ | .loopeJb _ | .loopJb _ | .jcxzJb _ | .inAlIb _ | .inAxIb _ | .outIbAl _ | .outIbAx _
  | .callJw _ | .jmpJw _ | .jmpAp _ _ | .jmpJb _ | .inAlDx | .inAxDx | .outDxAl | .outDxAx | .lock | .repne
  | .repe | .hlt | .cmc | .clc | .stc | .cli | .sti | .cld | .std => true

end Sys2Proof
end

