-- ==== Sys2Proof/Decode.lean ====
section
/-! DEFINITION. The decoder, total on any bytes, and after it the encoder, both from the encoding tables of 30_encoding.md.
A prefix byte decodes to its own row, alone: the decoder reads one row at a time, and what may follow a repeat prefix
(30_encoding.md R105) is checked where a whole instruction is read, in Machine/Driver.lean (log 14). -/

namespace Sys2Proof

/-! ## Codes of registers and operand forms -/

/-- `R16[n]` (10_state.md R21). -/
def Reg16.ofCode (n : BitVec 3) : Reg16 :=
  match n.toNat with
  | 0 => .ax | 1 => .cx | 2 => .dx | 3 => .bx | 4 => .sp | 5 => .bp | 6 => .si | _ => .di

/-- The code of a 16-bit register (10_state.md R21). -/
def Reg16.code : Reg16 → BitVec 3
  | .ax => 0 | .cx => 1 | .dx => 2 | .bx => 3 | .sp => 4 | .bp => 5 | .si => 6 | .di => 7

/-- `R8[n]` (10_state.md R22). -/
def Reg8.ofCode (n : BitVec 3) : Reg8 :=
  match n.toNat with
  | 0 => .al | 1 => .cl | 2 => .dl | 3 => .bl | 4 => .ah | 5 => .ch | 6 => .dh | _ => .bh

/-- The code of an 8-bit register (10_state.md R22). -/
def Reg8.code : Reg8 → BitVec 3
  | .al => 0 | .cl => 1 | .dl => 2 | .bl => 3 | .ah => 4 | .ch => 5 | .dh => 6 | .bh => 7

/-- `SREG[n]`, from the low two bits of the reg field (10_state.md R24, 30_encoding.md R107). -/
def Seg.ofCode (n : BitVec 3) : Seg :=
  match n.toNat % 4 with
  | 0 => .es | 1 => .cs | 2 => .ss | _ => .ds

/-- The code of a segment register (10_state.md R24). -/
def Seg.code : Seg → BitVec 3
  | .es => 0 | .cs => 1 | .ss => 2 | .ds => 3

/-- The base that rm selects (30_encoding.md R110). -/
def EaBase.ofCode (n : BitVec 3) : EaBase :=
  match n.toNat with
  | 0 => .bxSi | 1 => .bxDi | 2 => .bpSi | 3 => .bpDi | 4 => .si | 5 => .di | 6 => .bp | _ => .bx

/-- The rm code of a base (30_encoding.md R110). -/
def EaBase.code : EaBase → BitVec 3
  | .bxSi => 0 | .bxDi => 1 | .bpSi => 2 | .bpDi => 3 | .si => 4 | .di => 5 | .bp => 6 | .bx => 7

/-- An operand with its register renamed. -/
def Rm.map {A B : Type} (f : A → B) : Rm A → Rm B
  | .reg r => .reg (f r)
  | .mem m => .mem m

/-! ## Decoding -/

/-- What decoding one row gives: the instruction and the bytes after it; the opcode byte of an encoding that matches no row
(30_encoding.md R140); or that the bytes end inside the instruction. -/
inductive Decoded where
  | ok (i : Instr) (rest : List Byte)
  | unknown (op : Byte)
  | truncated
deriving DecidableEq, Repr

/-- The ModRM byte's fields (30_encoding.md R108). -/
structure ModRm where
  mod : BitVec 2
  reg : BitVec 3
  rm : BitVec 3
deriving DecidableEq, Repr

/-- `mod = ModRM[7:6]`, `reg = ModRM[5:3]`, `rm = ModRM[2:0]` (30_encoding.md R108). -/
def splitModRm (b : Byte) : ModRm := ⟨b.extractLsb' 6 2, field3 b 3, field3 b 0⟩

/-- The operand that mod and rm select, with its displacement read (30_encoding.md R109, R113). -/
def readOperand (m : ModRm) (bs : List Byte) : Option (Rm (BitVec 3) × List Byte) :=
  match m.mod.toNat, bs with
  | 3, bs => some (.reg m.rm, bs)
  | 0, bs =>
    if m.rm = 6 then
      match bs with
      | lo :: hi :: rest => some (.mem (.direct (join16 hi lo)), rest)
      | _ => none
    else some (.mem (.base (EaBase.ofCode m.rm) .none), bs)
  | 1, d :: rest => some (.mem (.base (EaBase.ofCode m.rm) (.d8 d)), rest)
  | 1, [] => none
  | _, lo :: hi :: rest => some (.mem (.base (EaBase.ofCode m.rm) (.d16 (join16 hi lo))), rest)
  | _, _ => none

/-- Reads the ModRM byte of opcode `op`, asks `k` whether a row of the table has these fields (30_encoding.md R103: before
the displacement is read), then reads the operand and goes on. -/
def withModRm (op : Byte) (bs : List Byte) (k : ModRm → Option (Rm (BitVec 3) → List Byte → Decoded)) : Decoded :=
  match bs with
  | [] => .truncated
  | b :: rest =>
    match k (splitModRm b) with
    | none => .unknown op
    | some f =>
      match readOperand (splitModRm b) rest with
      | none => .truncated
      | some (e, rest') => f e rest'

/-- A row of one opcode byte. -/
def plain (i : Instr) (bs : List Byte) : Decoded := .ok i bs

/-- A byte after what is read: `Ib`, `Jb` (30_encoding.md R114, R115). -/
def imm8 (c : Byte → Instr) : List Byte → Decoded
  | b :: rest => .ok (c b) rest
  | [] => .truncated

/-- A little-endian word after what is read: `Iw`, `Jw`, `Ob`, `Ow` (30_encoding.md R102, R114, R115). -/
def imm16 (c : Word → Instr) : List Byte → Decoded
  | lo :: hi :: rest => .ok (c (join16 hi lo)) rest
  | _ => .truncated

/-- A direct far pointer, the offset and then the segment (30_encoding.md R116). -/
def far (c : Word → Word → Instr) : List Byte → Decoded
  | ol :: oh :: sl :: sh :: rest => .ok (c (join16 oh ol) (join16 sh sl)) rest
  | _ => .truncated

/-- The r/m operand as `Eb`. -/
def rm8 (e : Rm (BitVec 3)) : Rm8 := e.map Reg8.ofCode

/-- The r/m operand as `Ew`. -/
def rm16 (e : Rm (BitVec 3)) : Rm16 := e.map Reg16.ofCode

/-- `Eb,Gb`. -/
def ebGb (c : Rm8 → Reg8 → Instr) (op : Byte) (bs : List Byte) : Decoded :=
  withModRm op bs fun m => some fun e => plain (c (rm8 e) (Reg8.ofCode m.reg))

/-- `Ew,Gw`. -/
def ewGw (c : Rm16 → Reg16 → Instr) (op : Byte) (bs : List Byte) : Decoded :=
  withModRm op bs fun m => some fun e => plain (c (rm16 e) (Reg16.ofCode m.reg))

/-- `Gb,Eb`. -/
def gbEb (c : Reg8 → Rm8 → Instr) (op : Byte) (bs : List Byte) : Decoded :=
  withModRm op bs fun m => some fun e => plain (c (Reg8.ofCode m.reg) (rm8 e))

/-- `Gw,Ew`. -/
def gwEw (c : Reg16 → Rm16 → Instr) (op : Byte) (bs : List Byte) : Decoded :=
  withModRm op bs fun m => some fun e => plain (c (Reg16.ofCode m.reg) (rm16 e))

/-- What goes on after a memory operand, for the forms that have no register operand (30_encoding.md R126). -/
def onMem (op : Byte) (f : MemOp → List Byte → Decoded) (e : Rm (BitVec 3)) (rest : List Byte) : Decoded :=
  match e with
  | .mem m => f m rest
  | .reg _ => .unknown op

/-- `Gw,M` and `Gw,Mp`: mod ≠ 11 (30_encoding.md R126). -/
def gwM (c : Reg16 → MemOp → Instr) (op : Byte) (bs : List Byte) : Decoded :=
  withModRm op bs fun m =>
    if m.mod = 3 then none else some (onMem op fun o => plain (c (Reg16.ofCode m.reg) o))

/-- A group (30_encoding.md R121 to R125): the reg field selects what follows, `none` where no row has it. -/
def group (g : BitVec 3 → Option (Rm (BitVec 3) → List Byte → Decoded)) (op : Byte) (bs : List Byte) : Decoded :=
  withModRm op bs fun m => g m.reg

/-- A group member `Eb`. -/
def eb (c : Rm8 → Instr) : Option (Rm (BitVec 3) → List Byte → Decoded) := some fun e => plain (c (rm8 e))

/-- A group member `Ew`. -/
def ew (c : Rm16 → Instr) : Option (Rm (BitVec 3) → List Byte → Decoded) := some fun e => plain (c (rm16 e))

/-- A group member `Eb,Ib`. -/
def ebIb (c : Rm8 → Byte → Instr) : Option (Rm (BitVec 3) → List Byte → Decoded) := some fun e => imm8 (c (rm8 e))

/-- A group member `Ew,Ib`, the byte to be sign-extended (opcode 83). -/
def ewIb (c : Rm16 → Byte → Instr) : Option (Rm (BitVec 3) → List Byte → Decoded) := some fun e => imm8 (c (rm16 e))

/-- A group member `Ew,Iw`. -/
def ewIw (c : Rm16 → Word → Instr) : Option (Rm (BitVec 3) → List Byte → Decoded) := some fun e => imm16 (c (rm16 e))

/-- The rows of opcode 80 by the reg field (30_encoding.md R121). -/
def group80 (reg : BitVec 3) : Option (Rm (BitVec 3) → List Byte → Decoded) :=
  match reg.toNat with
  | 0 => ebIb .addEbIb
  | 1 => ebIb .orEbIb
  | 2 => ebIb .adcEbIb
  | 3 => ebIb .sbbEbIb
  | 4 => ebIb .andEbIb
  | 5 => ebIb .subEbIb
  | 6 => ebIb .xorEbIb
  | 7 => ebIb .cmpEbIb
  | _ => none

/-- The rows of opcode 81 by the reg field (30_encoding.md R121). -/
def group81 (reg : BitVec 3) : Option (Rm (BitVec 3) → List Byte → Decoded) :=
  match reg.toNat with
  | 0 => ewIw .addEwIw
  | 1 => ewIw .orEwIw
  | 2 => ewIw .adcEwIw
  | 3 => ewIw .sbbEwIw
  | 4 => ewIw .andEwIw
  | 5 => ewIw .subEwIw
  | 6 => ewIw .xorEwIw
  | 7 => ewIw .cmpEwIw
  | _ => none

/-- The rows of opcode 82 by the reg field (30_encoding.md R121: no logical operations). -/
def group82 (reg : BitVec 3) : Option (Rm (BitVec 3) → List Byte → Decoded) :=
  match reg.toNat with
  | 0 => ebIb .addEbIb82
  | 2 => ebIb .adcEbIb82
  | 3 => ebIb .sbbEbIb82
  | 5 => ebIb .subEbIb82
  | 7 => ebIb .cmpEbIb82
  | _ => none

/-- The rows of opcode 83 by the reg field (30_encoding.md R121: no logical operations). -/
def group83 (reg : BitVec 3) : Option (Rm (BitVec 3) → List Byte → Decoded) :=
  match reg.toNat with
  | 0 => ewIb .addEwIbSx
  | 2 => ewIb .adcEwIbSx
  | 3 => ewIb .sbbEwIbSx
  | 5 => ewIb .subEwIbSx
  | 7 => ewIb .cmpEwIbSx
  | _ => none

/-- The rows of opcode 8E by the reg field (30_encoding.md R125: no load of CS). -/
def group8E (reg : BitVec 3) : Option (Rm (BitVec 3) → List Byte → Decoded) :=
  match reg.toNat with
  | 0 => ew .movEsEw
  | 2 => ew .movSsEw
  | 3 => ew .movDsEw
  | _ => none

/-- The rows of opcode 8F by the reg field (30_encoding.md R125). -/
def group8F (reg : BitVec 3) : Option (Rm (BitVec 3) → List Byte → Decoded) :=
  match reg.toNat with
  | 0 => ew .popEw
  | _ => none

/-- The rows of opcode C6 by the reg field (30_encoding.md R125). -/
def groupC6 (reg : BitVec 3) : Option (Rm (BitVec 3) → List Byte → Decoded) :=
  match reg.toNat with
  | 0 => ebIb .movEbIb
  | _ => none

/-- The rows of opcode C7 by the reg field (30_encoding.md R125). -/
def groupC7 (reg : BitVec 3) : Option (Rm (BitVec 3) → List Byte → Decoded) :=
  match reg.toNat with
  | 0 => ewIw .movEwIw
  | _ => none

/-- The rows of opcode D0 by the reg field (30_encoding.md R122). -/
def groupD0 (reg : BitVec 3) : Option (Rm (BitVec 3) → List Byte → Decoded) :=
  match reg.toNat with
  | 0 => eb .rolEb1
  | 1 => eb .rorEb1
  | 2 => eb .rclEb1
  | 3 => eb .rcrEb1
  | 4 => eb .shlEb1
  | 5 => eb .shrEb1
  | 7 => eb .sarEb1
  | _ => none

/-- The rows of opcode D1 by the reg field (30_encoding.md R122). -/
def groupD1 (reg : BitVec 3) : Option (Rm (BitVec 3) → List Byte → Decoded) :=
  match reg.toNat with
  | 0 => ew .rolEw1
  | 1 => ew .rorEw1
  | 2 => ew .rclEw1
  | 3 => ew .rcrEw1
  | 4 => ew .shlEw1
  | 5 => ew .shrEw1
  | 7 => ew .sarEw1
  | _ => none

/-- The rows of opcode D2 by the reg field (30_encoding.md R122). -/
def groupD2 (reg : BitVec 3) : Option (Rm (BitVec 3) → List Byte → Decoded) :=
  match reg.toNat with
  | 0 => eb .rolEbCl
  | 1 => eb .rorEbCl
  | 2 => eb .rclEbCl
  | 3 => eb .rcrEbCl
  | 4 => eb .shlEbCl
  | 5 => eb .shrEbCl
  | 7 => eb .sarEbCl
  | _ => none

/-- The rows of opcode D3 by the reg field (30_encoding.md R122). -/
def groupD3 (reg : BitVec 3) : Option (Rm (BitVec 3) → List Byte → Decoded) :=
  match reg.toNat with
  | 0 => ew .rolEwCl
  | 1 => ew .rorEwCl
  | 2 => ew .rclEwCl
  | 3 => ew .rcrEwCl
  | 4 => ew .shlEwCl
  | 5 => ew .shrEwCl
  | 7 => ew .sarEwCl
  | _ => none

/-- The rows of opcode F6 by the reg field (30_encoding.md R123). -/
def groupF6 (reg : BitVec 3) : Option (Rm (BitVec 3) → List Byte → Decoded) :=
  match reg.toNat with
  | 0 => ebIb .testEbIb
  | 2 => eb .notEb
  | 3 => eb .negEb
  | 4 => eb .mulEb
  | 5 => eb .imulEb
  | 6 => eb .divEb
  | 7 => eb .idivEb
  | _ => none

/-- The rows of opcode F7 by the reg field (30_encoding.md R123). -/
def groupF7 (reg : BitVec 3) : Option (Rm (BitVec 3) → List Byte → Decoded) :=
  match reg.toNat with
  | 0 => ewIw .testEwIw
  | 2 => ew .notEw
  | 3 => ew .negEw
  | 4 => ew .mulEw
  | 5 => ew .imulEw
  | 6 => ew .divEw
  | 7 => ew .idivEw
  | _ => none

/-- The rows of opcode FE by the reg field (30_encoding.md R124). -/
def groupFE (reg : BitVec 3) : Option (Rm (BitVec 3) → List Byte → Decoded) :=
  match reg.toNat with
  | 0 => eb .incEb
  | 1 => eb .decEb
  | _ => none

/-- The rows of opcode FF by the reg field (30_encoding.md R124, without its far forms). -/
def groupFF (reg : BitVec 3) : Option (Rm (BitVec 3) → List Byte → Decoded) :=
  match reg.toNat with
  | 0 => ew .incEw
  | 1 => ew .decEw
  | 2 => ew .callEw
  | 4 => ew .jmpEw
  | 6 => ew .pushEw
  | _ => none

/-- Opcode FF (30_encoding.md R124, R126): the far forms 3 and 5 take a memory operand only. -/
def decodeFF (op : Byte) (bs : List Byte) : Decoded :=
  withModRm op bs fun m =>
    match m.reg.toNat with
    | 3 => if m.mod = 3 then none else some (onMem op fun o => plain (.callMp o))
    | 5 => if m.mod = 3 then none else some (onMem op fun o => plain (.jmpMp o))
    | _ => groupFF m.reg

/-- Opcode 8C, MOV Ew,Sw (30_encoding.md R125): reg = 100 to 111 are unknown. -/
def decode8C (op : Byte) (bs : List Byte) : Decoded :=
  withModRm op bs fun m =>
    if m.reg.toNat < 4 then some fun e => plain (.movEwSw (rm16 e) (Seg.ofCode m.reg)) else none

/-- Opcodes D8 to DF, ESC (30_encoding.md R120, R141). -/
def decodeEsc (op : Byte) (bs : List Byte) : Decoded :=
  withModRm op bs fun m => some fun e => plain (.esc (field3 op 0) m.reg (rm16 e))

/-- Opcodes 00 to 3F (30_encoding.md R117). -/
def decode00 (op : Byte) (bs : List Byte) : Decoded :=
  match op.toNat with
  | 0x00 => ebGb .addEbGb op bs
  | 0x01 => ewGw .addEwGw op bs
  | 0x02 => gbEb .addGbEb op bs
  | 0x03 => gwEw .addGwEw op bs
  | 0x04 => imm8 .addAlIb bs
  | 0x05 => imm16 .addAxIw bs
  | 0x06 => plain .pushEs bs
  | 0x07 => plain .popEs bs
  | 0x08 => ebGb .orEbGb op bs
  | 0x09 => ewGw .orEwGw op bs
  | 0x0A => gbEb .orGbEb op bs
  | 0x0B => gwEw .orGwEw op bs
  | 0x0C => imm8 .orAlIb bs
  | 0x0D => imm16 .orAxIw bs
  | 0x0E => plain .pushCs bs
  | 0x10 => ebGb .adcEbGb op bs
  | 0x11 => ewGw .adcEwGw op bs
  | 0x12 => gbEb .adcGbEb op bs
  | 0x13 => gwEw .adcGwEw op bs
  | 0x14 => imm8 .adcAlIb bs
  | 0x15 => imm16 .adcAxIw bs
  | 0x16 => plain .pushSs bs
  | 0x17 => plain .popSs bs
  | 0x18 => ebGb .sbbEbGb op bs
  | 0x19 => ewGw .sbbEwGw op bs
  | 0x1A => gbEb .sbbGbEb op bs
  | 0x1B => gwEw .sbbGwEw op bs
  | 0x1C => imm8 .sbbAlIb bs
  | 0x1D => imm16 .sbbAxIw bs
  | 0x1E => plain .pushDs bs
  | 0x1F => plain .popDs bs
  | 0x20 => ebGb .andEbGb op bs
  | 0x21 => ewGw .andEwGw op bs
  | 0x22 => gbEb .andGbEb op bs
  | 0x23 => gwEw .andGwEw op bs
  | 0x24 => imm8 .andAlIb bs
  | 0x25 => imm16 .andAxIw bs
  | 0x26 => plain .segEs bs
  | 0x27 => plain .daa bs
  | 0x28 => ebGb .subEbGb op bs
  | 0x29 => ewGw .subEwGw op bs
  | 0x2A => gbEb .subGbEb op bs
  | 0x2B => gwEw .subGwEw op bs
  | 0x2C => imm8 .subAlIb bs
  | 0x2D => imm16 .subAxIw bs
  | 0x2E => plain .segCs bs
  | 0x2F => plain .das bs
  | 0x30 => ebGb .xorEbGb op bs
  | 0x31 => ewGw .xorEwGw op bs
  | 0x32 => gbEb .xorGbEb op bs
  | 0x33 => gwEw .xorGwEw op bs
  | 0x34 => imm8 .xorAlIb bs
  | 0x35 => imm16 .xorAxIw bs
  | 0x36 => plain .segSs bs
  | 0x37 => plain .aaa bs
  | 0x38 => ebGb .cmpEbGb op bs
  | 0x39 => ewGw .cmpEwGw op bs
  | 0x3A => gbEb .cmpGbEb op bs
  | 0x3B => gwEw .cmpGwEw op bs
  | 0x3C => imm8 .cmpAlIb bs
  | 0x3D => imm16 .cmpAxIw bs
  | 0x3E => plain .segDs bs
  | 0x3F => plain .aas bs
  | _ => .unknown op

/-- Opcodes 40 to 6F (30_encoding.md R118): the register is bits 2..0. -/
def decode40 (op : Byte) (bs : List Byte) : Decoded :=
  match op.toNat / 8 with
  | 8 => plain (.incR16 (Reg16.ofCode (field3 op 0))) bs
  | 9 => plain (.decR16 (Reg16.ofCode (field3 op 0))) bs
  | 10 => plain (.pushR16 (Reg16.ofCode (field3 op 0))) bs
  | 11 => plain (.popR16 (Reg16.ofCode (field3 op 0))) bs
  | _ => .unknown op

/-- Opcodes 70 to 8F (30_encoding.md R118, R119). -/
def decode70 (op : Byte) (bs : List Byte) : Decoded :=
  match op.toNat with
  | 0x70 => imm8 .joJb bs
  | 0x71 => imm8 .jnoJb bs
  | 0x72 => imm8 .jbJb bs
  | 0x73 => imm8 .jaeJb bs
  | 0x74 => imm8 .jeJb bs
  | 0x75 => imm8 .jneJb bs
  | 0x76 => imm8 .jbeJb bs
  | 0x77 => imm8 .jaJb bs
  | 0x78 => imm8 .jsJb bs
  | 0x79 => imm8 .jnsJb bs
  | 0x7A => imm8 .jpJb bs
  | 0x7B => imm8 .jnpJb bs
  | 0x7C => imm8 .jlJb bs
  | 0x7D => imm8 .jgeJb bs
  | 0x7E => imm8 .jleJb bs
  | 0x7F => imm8 .jgJb bs
  | 0x80 => group group80 op bs
  | 0x81 => group group81 op bs
  | 0x82 => group group82 op bs
  | 0x83 => group group83 op bs
  | 0x84 => ebGb .testEbGb op bs
  | 0x85 => ewGw .testEwGw op bs
  | 0x86 => ebGb .xchgEbGb op bs
  | 0x87 => ewGw .xchgEwGw op bs
  | 0x88 => ebGb .movEbGb op bs
  | 0x89 => ewGw .movEwGw op bs
  | 0x8A => gbEb .movGbEb op bs
  | 0x8B => gwEw .movGwEw op bs
  | 0x8C => decode8C op bs
  | 0x8D => gwM .leaGwM op bs
  | 0x8E => group group8E op bs
  | 0x8F => group group8F op bs
  | _ => .unknown op

/-- Opcodes 90 and 98 to AF (30_encoding.md R119). -/
def decode90 (op : Byte) (bs : List Byte) : Decoded :=
  match op.toNat with
  | 0x90 => plain .nop bs
  | 0x98 => plain .cbw bs
  | 0x99 => plain .cwd bs
  | 0x9A => far .callAp bs
  | 0x9B => plain .wait bs
  | 0x9C => plain .pushf bs
  | 0x9D => plain .popf bs
  | 0x9E => plain .sahf bs
  | 0x9F => plain .lahf bs
  | 0xA0 => imm16 .movAlOb bs
  | 0xA1 => imm16 .movAxOw bs
  | 0xA2 => imm16 .movObAl bs
  | 0xA3 => imm16 .movOwAx bs
  | 0xA4 => plain .movsb bs
  | 0xA5 => plain .movsw bs
  | 0xA6 => plain .cmpsb bs
  | 0xA7 => plain .cmpsw bs
  | 0xA8 => imm8 .testAlIb bs
  | 0xA9 => imm16 .testAxIw bs
  | 0xAA => plain .stosb bs
  | 0xAB => plain .stosw bs
  | 0xAC => plain .lodsb bs
  | 0xAD => plain .lodsw bs
  | 0xAE => plain .scasb bs
  | 0xAF => plain .scasw bs
  | _ => .unknown op

/-- Opcodes 91 to 97 and B0 to BF (30_encoding.md R119): the register is bits 2..0. -/
def decodeReg (op : Byte) (bs : List Byte) : Decoded :=
  match op.toNat / 8 with
  | 18 => plain (.xchgAxR16 (Reg16.ofCode (field3 op 0))) bs
  | 22 => imm8 (.movR8Ib (Reg8.ofCode (field3 op 0))) bs
  | 23 => imm16 (.movR16Iw (Reg16.ofCode (field3 op 0))) bs
  | _ => .unknown op

/-- Opcodes C0 to D7 (30_encoding.md R120). -/
def decodeC0 (op : Byte) (bs : List Byte) : Decoded :=
  match op.toNat with
  | 0xC2 => imm16 .retIw bs
  | 0xC3 => plain .ret bs
  | 0xC4 => gwM .lesGwMp op bs
  | 0xC5 => gwM .ldsGwMp op bs
  | 0xC6 => group groupC6 op bs
  | 0xC7 => group groupC7 op bs
  | 0xCA => imm16 .retfIw bs
  | 0xCB => plain .retf bs
  | 0xCC => plain .int3 bs
  | 0xCD => imm8 .intIb bs
  | 0xCE => plain .into bs
  | 0xCF => plain .iret bs
  | 0xD0 => group groupD0 op bs
  | 0xD1 => group groupD1 op bs
  | 0xD2 => group groupD2 op bs
  | 0xD3 => group groupD3 op bs
  | 0xD4 => imm8 .aamIb bs
  | 0xD5 => imm8 .aadIb bs
  | 0xD7 => plain .xlat bs
  | _ => .unknown op

/-- Opcodes E0 to FF (30_encoding.md R120). -/
def decodeE0 (op : Byte) (bs : List Byte) : Decoded :=
  match op.toNat with
  | 0xE0 => imm8 .loopneJb bs
  | 0xE1 => imm8 .loopeJb bs
  | 0xE2 => imm8 .loopJb bs
  | 0xE3 => imm8 .jcxzJb bs
  | 0xE4 => imm8 .inAlIb bs
  | 0xE5 => imm8 .inAxIb bs
  | 0xE6 => imm8 .outIbAl bs
  | 0xE7 => imm8 .outIbAx bs
  | 0xE8 => imm16 .callJw bs
  | 0xE9 => imm16 .jmpJw bs
  | 0xEA => far .jmpAp bs
  | 0xEB => imm8 .jmpJb bs
  | 0xEC => plain .inAlDx bs
  | 0xED => plain .inAxDx bs
  | 0xEE => plain .outDxAl bs
  | 0xEF => plain .outDxAx bs
  | 0xF0 => plain .lock bs
  | 0xF2 => plain .repne bs
  | 0xF3 => plain .repe bs
  | 0xF4 => plain .hlt bs
  | 0xF5 => plain .cmc bs
  | 0xF6 => group groupF6 op bs
  | 0xF7 => group groupF7 op bs
  | 0xF8 => plain .clc bs
  | 0xF9 => plain .stc bs
  | 0xFA => plain .cli bs
  | 0xFB => plain .sti bs
  | 0xFC => plain .cld bs
  | 0xFD => plain .std bs
  | 0xFE => group groupFE op bs
  | 0xFF => decodeFF op bs
  | _ => .unknown op

/-- Decodes the row whose opcode is `op` from the bytes after it (30_encoding.md R117 to R126). -/
def decodeOpcode (op : Byte) (bs : List Byte) : Decoded :=
  if op.toNat < 0x40 then decode00 op bs
  else if op.toNat < 0x70 then decode40 op bs
  else if op.toNat < 0x90 then decode70 op bs
  else if op.toNat = 0x90 then decode90 op bs
  else if op.toNat < 0x98 then decodeReg op bs
  else if op.toNat < 0xB0 then decode90 op bs
  else if op.toNat < 0xC0 then decodeReg op bs
  else if op.toNat < 0xD8 then decodeC0 op bs
  else if op.toNat < 0xE0 then decodeEsc op bs
  else decodeE0 op bs

/-- Decodes one row from the front of a list of bytes (30_encoding.md R103). -/
def decode : List Byte → Decoded
  | [] => .truncated
  | op :: bs => decodeOpcode op bs

/-- The prefix rows (30_encoding.md R104). -/
def Instr.isPrefix : Instr → Bool
  | .segEs | .segCs | .segSs | .segDs | .lock | .repne | .repe => true
  | _ => false

/-- The string instructions, which a repeat prefix may precede: opcodes A4 to A7 and AA to AF (30_encoding.md R105). -/
def Instr.isString : Instr → Bool
  | .movsb | .movsw | .cmpsb | .cmpsw | .stosb | .stosw | .lodsb | .lodsw | .scasb | .scasw => true
  | _ => false

/-- The longest row without prefixes: opcode, ModRM, disp16 and imm16 (30_encoding.md R101). -/
def maxLength : Nat := 6

/-! ## Encoding -/

/-- The ModRM byte of three fields (30_encoding.md R108). -/
def joinModRm (mod : BitVec 2) (reg rm : BitVec 3) : Byte := mod ++ (reg ++ rm)

/-- The two bytes of a word, low first (30_encoding.md R102). -/
def wordBytes (w : Word) : List Byte := [lo8 w, hi8 w]

/-- ModRM and displacement of a memory operand (30_encoding.md R109, R113). -/
def encodeMem (reg : BitVec 3) : MemOp → List Byte
  | .direct off => joinModRm 0 reg 6 :: wordBytes off
  | .base b .none => [joinModRm 0 reg b.code]
  | .base b (.d8 d) => [joinModRm 1 reg b.code, d]
  | .base b (.d16 d) => joinModRm 2 reg b.code :: wordBytes d

/-- ModRM and displacement of an operand `Eb`. -/
def encodeRm8 (reg : BitVec 3) : Rm8 → List Byte
  | .reg r => [joinModRm 3 reg r.code]
  | .mem m => encodeMem reg m

/-- ModRM and displacement of an operand `Ew`. -/
def encodeRm16 (reg : BitVec 3) : Rm16 → List Byte
  | .reg r => [joinModRm 3 reg r.code]
  | .mem m => encodeMem reg m

/-- An opcode byte whose bits 2..0 are a register number (30_encoding.md R106). -/
def opReg (op5 : BitVec 5) (r : BitVec 3) : Byte := op5 ++ r

/-- The bytes of a well-formed instruction (30_encoding.md R117 to R126). -/
def encode : Instr → List Byte
  | .addEbGb e g => 0x00 :: encodeRm8 g.code e
  | .addEwGw e g => 0x01 :: encodeRm16 g.code e
  | .addGbEb g e => 0x02 :: encodeRm8 g.code e
  | .addGwEw g e => 0x03 :: encodeRm16 g.code e
  | .addAlIb i => [0x04, i]
  | .addAxIw i => 0x05 :: wordBytes i
  | .orEbGb e g => 0x08 :: encodeRm8 g.code e
  | .orEwGw e g => 0x09 :: encodeRm16 g.code e
  | .orGbEb g e => 0x0A :: encodeRm8 g.code e
  | .orGwEw g e => 0x0B :: encodeRm16 g.code e
  | .orAlIb i => [0x0C, i]
  | .orAxIw i => 0x0D :: wordBytes i
  | .adcEbGb e g => 0x10 :: encodeRm8 g.code e
  | .adcEwGw e g => 0x11 :: encodeRm16 g.code e
  | .adcGbEb g e => 0x12 :: encodeRm8 g.code e
  | .adcGwEw g e => 0x13 :: encodeRm16 g.code e
  | .adcAlIb i => [0x14, i]
  | .adcAxIw i => 0x15 :: wordBytes i
  | .sbbEbGb e g => 0x18 :: encodeRm8 g.code e
  | .sbbEwGw e g => 0x19 :: encodeRm16 g.code e
  | .sbbGbEb g e => 0x1A :: encodeRm8 g.code e
  | .sbbGwEw g e => 0x1B :: encodeRm16 g.code e
  | .sbbAlIb i => [0x1C, i]
  | .sbbAxIw i => 0x1D :: wordBytes i
  | .andEbGb e g => 0x20 :: encodeRm8 g.code e
  | .andEwGw e g => 0x21 :: encodeRm16 g.code e
  | .andGbEb g e => 0x22 :: encodeRm8 g.code e
  | .andGwEw g e => 0x23 :: encodeRm16 g.code e
  | .andAlIb i => [0x24, i]
  | .andAxIw i => 0x25 :: wordBytes i
  | .subEbGb e g => 0x28 :: encodeRm8 g.code e
  | .subEwGw e g => 0x29 :: encodeRm16 g.code e
  | .subGbEb g e => 0x2A :: encodeRm8 g.code e
  | .subGwEw g e => 0x2B :: encodeRm16 g.code e
  | .subAlIb i => [0x2C, i]
  | .subAxIw i => 0x2D :: wordBytes i
  | .xorEbGb e g => 0x30 :: encodeRm8 g.code e
  | .xorEwGw e g => 0x31 :: encodeRm16 g.code e
  | .xorGbEb g e => 0x32 :: encodeRm8 g.code e
  | .xorGwEw g e => 0x33 :: encodeRm16 g.code e
  | .xorAlIb i => [0x34, i]
  | .xorAxIw i => 0x35 :: wordBytes i
  | .cmpEbGb e g => 0x38 :: encodeRm8 g.code e
  | .cmpEwGw e g => 0x39 :: encodeRm16 g.code e
  | .cmpGbEb g e => 0x3A :: encodeRm8 g.code e
  | .cmpGwEw g e => 0x3B :: encodeRm16 g.code e
  | .cmpAlIb i => [0x3C, i]
  | .cmpAxIw i => 0x3D :: wordBytes i
  | .pushEs => [0x06]
  | .popEs => [0x07]
  | .segEs => [0x26]
  | .pushCs => [0x0E]
  | .segCs => [0x2E]
  | .pushSs => [0x16]
  | .popSs => [0x17]
  | .segSs => [0x36]
  | .pushDs => [0x1E]
  | .popDs => [0x1F]
  | .segDs => [0x3E]
  | .daa => [0x27]
  | .das => [0x2F]
  | .aaa => [0x37]
  | .aas => [0x3F]
  | .incR16 r => [opReg 0x08 r.code]
  | .decR16 r => [opReg 0x09 r.code]
  | .pushR16 r => [opReg 0x0A r.code]
  | .popR16 r => [opReg 0x0B r.code]
  | .joJb d => [0x70, d]
  | .jnoJb d => [0x71, d]
  | .jbJb d => [0x72, d]
  | .jaeJb d => [0x73, d]
  | .jeJb d => [0x74, d]
  | .jneJb d => [0x75, d]
  | .jbeJb d => [0x76, d]
  | .jaJb d => [0x77, d]
  | .jsJb d => [0x78, d]
  | .jnsJb d => [0x79, d]
  | .jpJb d => [0x7A, d]
  | .jnpJb d => [0x7B, d]
  | .jlJb d => [0x7C, d]
  | .jgeJb d => [0x7D, d]
  | .jleJb d => [0x7E, d]
  | .jgJb d => [0x7F, d]
  | .addEbIb e i => 0x80 :: (encodeRm8 0 e ++ [i])
  | .addEwIw e i => 0x81 :: (encodeRm16 0 e ++ wordBytes i)
  | .addEbIb82 e i => 0x82 :: (encodeRm8 0 e ++ [i])
  | .addEwIbSx e i => 0x83 :: (encodeRm16 0 e ++ [i])
  | .orEbIb e i => 0x80 :: (encodeRm8 1 e ++ [i])
  | .orEwIw e i => 0x81 :: (encodeRm16 1 e ++ wordBytes i)
  | .adcEbIb e i => 0x80 :: (encodeRm8 2 e ++ [i])
  | .adcEwIw e i => 0x81 :: (encodeRm16 2 e ++ wordBytes i)
  | .adcEbIb82 e i => 0x82 :: (encodeRm8 2 e ++ [i])
  | .adcEwIbSx e i => 0x83 :: (encodeRm16 2 e ++ [i])
  | .sbbEbIb e i => 0x80 :: (encodeRm8 3 e ++ [i])
  | .sbbEwIw e i => 0x81 :: (encodeRm16 3 e ++ wordBytes i)
  | .sbbEbIb82 e i => 0x82 :: (encodeRm8 3 e ++ [i])
  | .sbbEwIbSx e i => 0x83 :: (encodeRm16 3 e ++ [i])
  | .andEbIb e i => 0x80 :: (encodeRm8 4 e ++ [i])
  | .andEwIw e i => 0x81 :: (encodeRm16 4 e ++ wordBytes i)
  | .subEbIb e i => 0x80 :: (encodeRm8 5 e ++ [i])
  | .subEwIw e i => 0x81 :: (encodeRm16 5 e ++ wordBytes i)
  | .subEbIb82 e i => 0x82 :: (encodeRm8 5 e ++ [i])
  | .subEwIbSx e i => 0x83 :: (encodeRm16 5 e ++ [i])
  | .xorEbIb e i => 0x80 :: (encodeRm8 6 e ++ [i])
  | .xorEwIw e i => 0x81 :: (encodeRm16 6 e ++ wordBytes i)
  | .cmpEbIb e i => 0x80 :: (encodeRm8 7 e ++ [i])
  | .cmpEwIw e i => 0x81 :: (encodeRm16 7 e ++ wordBytes i)
  | .cmpEbIb82 e i => 0x82 :: (encodeRm8 7 e ++ [i])
  | .cmpEwIbSx e i => 0x83 :: (encodeRm16 7 e ++ [i])
  | .testEbGb e g => 0x84 :: encodeRm8 g.code e
  | .testEwGw e g => 0x85 :: encodeRm16 g.code e
  | .xchgEbGb e g => 0x86 :: encodeRm8 g.code e
  | .xchgEwGw e g => 0x87 :: encodeRm16 g.code e
  | .movEbGb e g => 0x88 :: encodeRm8 g.code e
  | .movEwGw e g => 0x89 :: encodeRm16 g.code e
  | .movGbEb g e => 0x8A :: encodeRm8 g.code e
  | .movGwEw g e => 0x8B :: encodeRm16 g.code e
  | .movEwSw e sg => 0x8C :: encodeRm16 sg.code e
  | .leaGwM g m => 0x8D :: encodeMem g.code m
  | .movEsEw e => 0x8E :: encodeRm16 0 e
  | .movSsEw e => 0x8E :: encodeRm16 2 e
  | .movDsEw e => 0x8E :: encodeRm16 3 e
  | .popEw e => 0x8F :: encodeRm16 0 e
  | .nop => [0x90]
  | .xchgAxR16 r => [opReg 0x12 r.code]
  | .cbw => [0x98]
  | .cwd => [0x99]
  | .callAp o sg => 0x9A :: (wordBytes o ++ wordBytes sg)
  | .wait => [0x9B]
  | .pushf => [0x9C]
  | .popf => [0x9D]
  | .sahf => [0x9E]
  | .lahf => [0x9F]
  | .movAlOb o => 0xA0 :: wordBytes o
  | .movAxOw o => 0xA1 :: wordBytes o
  | .movObAl o => 0xA2 :: wordBytes o
  | .movOwAx o => 0xA3 :: wordBytes o
  | .movsb => [0xA4]
  | .movsw => [0xA5]
  | .cmpsb => [0xA6]
  | .cmpsw => [0xA7]
  | .testAlIb i => [0xA8, i]
  | .testAxIw i => 0xA9 :: wordBytes i
  | .stosb => [0xAA]
  | .stosw => [0xAB]
  | .lodsb => [0xAC]
  | .lodsw => [0xAD]
  | .scasb => [0xAE]
  | .scasw => [0xAF]
  | .movR8Ib r i => [opReg 0x16 r.code, i]
  | .movR16Iw r i => opReg 0x17 r.code :: wordBytes i
  | .retIw i => 0xC2 :: wordBytes i
  | .ret => [0xC3]
  | .lesGwMp g m => 0xC4 :: encodeMem g.code m
  | .ldsGwMp g m => 0xC5 :: encodeMem g.code m
  | .movEbIb e i => 0xC6 :: (encodeRm8 0 e ++ [i])
  | .movEwIw e i => 0xC7 :: (encodeRm16 0 e ++ wordBytes i)
  | .retfIw i => 0xCA :: wordBytes i
  | .retf => [0xCB]
  | .int3 => [0xCC]
  | .intIb i => [0xCD, i]
  | .into => [0xCE]
  | .iret => [0xCF]
  | .rolEb1 e => 0xD0 :: encodeRm8 0 e
  | .rorEb1 e => 0xD0 :: encodeRm8 1 e
  | .rclEb1 e => 0xD0 :: encodeRm8 2 e
  | .rcrEb1 e => 0xD0 :: encodeRm8 3 e
  | .shlEb1 e => 0xD0 :: encodeRm8 4 e
  | .shrEb1 e => 0xD0 :: encodeRm8 5 e
  | .sarEb1 e => 0xD0 :: encodeRm8 7 e
  | .rolEw1 e => 0xD1 :: encodeRm16 0 e
  | .rorEw1 e => 0xD1 :: encodeRm16 1 e
  | .rclEw1 e => 0xD1 :: encodeRm16 2 e
  | .rcrEw1 e => 0xD1 :: encodeRm16 3 e
  | .shlEw1 e => 0xD1 :: encodeRm16 4 e
  | .shrEw1 e => 0xD1 :: encodeRm16 5 e
  | .sarEw1 e => 0xD1 :: encodeRm16 7 e
  | .rolEbCl e => 0xD2 :: encodeRm8 0 e
  | .rorEbCl e => 0xD2 :: encodeRm8 1 e
  | .rclEbCl e => 0xD2 :: encodeRm8 2 e
  | .rcrEbCl e => 0xD2 :: encodeRm8 3 e
  | .shlEbCl e => 0xD2 :: encodeRm8 4 e
  | .shrEbCl e => 0xD2 :: encodeRm8 5 e
  | .sarEbCl e => 0xD2 :: encodeRm8 7 e
  | .rolEwCl e => 0xD3 :: encodeRm16 0 e
  | .rorEwCl e => 0xD3 :: encodeRm16 1 e
  | .rclEwCl e => 0xD3 :: encodeRm16 2 e
  | .rcrEwCl e => 0xD3 :: encodeRm16 3 e
  | .shlEwCl e => 0xD3 :: encodeRm16 4 e
  | .shrEwCl e => 0xD3 :: encodeRm16 5 e
  | .sarEwCl e => 0xD3 :: encodeRm16 7 e
  | .aamIb i => [0xD4, i]
  | .aadIb i => [0xD5, i]
  | .xlat => [0xD7]
  | .esc x y e => opReg 0x1B x :: encodeRm16 y e
  | .loopneJb d => [0xE0, d]
  | .loopeJb d => [0xE1, d]
  | .loopJb d => [0xE2, d]
  | .jcxzJb d => [0xE3, d]
  | .inAlIb i => [0xE4, i]
  | .inAxIb i => [0xE5, i]
  | .outIbAl i => [0xE6, i]
  | .outIbAx i => [0xE7, i]
  | .callJw d => 0xE8 :: wordBytes d
  | .jmpJw d => 0xE9 :: wordBytes d
  | .jmpAp o sg => 0xEA :: (wordBytes o ++ wordBytes sg)
  | .jmpJb d => [0xEB, d]
  | .inAlDx => [0xEC]
  | .inAxDx => [0xED]
  | .outDxAl => [0xEE]
  | .outDxAx => [0xEF]
  | .lock => [0xF0]
  | .repne => [0xF2]
  | .repe => [0xF3]
  | .hlt => [0xF4]
  | .cmc => [0xF5]
  | .testEbIb e i => 0xF6 :: (encodeRm8 0 e ++ [i])
  | .notEb e => 0xF6 :: encodeRm8 2 e
  | .negEb e => 0xF6 :: encodeRm8 3 e
  | .mulEb e => 0xF6 :: encodeRm8 4 e
  | .imulEb e => 0xF6 :: encodeRm8 5 e
  | .divEb e => 0xF6 :: encodeRm8 6 e
  | .idivEb e => 0xF6 :: encodeRm8 7 e
  | .testEwIw e i => 0xF7 :: (encodeRm16 0 e ++ wordBytes i)
  | .notEw e => 0xF7 :: encodeRm16 2 e
  | .negEw e => 0xF7 :: encodeRm16 3 e
  | .mulEw e => 0xF7 :: encodeRm16 4 e
  | .imulEw e => 0xF7 :: encodeRm16 5 e
  | .divEw e => 0xF7 :: encodeRm16 6 e
  | .idivEw e => 0xF7 :: encodeRm16 7 e
  | .incEb e => 0xFE :: encodeRm8 0 e
  | .decEb e => 0xFE :: encodeRm8 1 e
  | .incEw e => 0xFF :: encodeRm16 0 e
  | .decEw e => 0xFF :: encodeRm16 1 e
  | .callEw e => 0xFF :: encodeRm16 2 e
  | .callMp m => 0xFF :: encodeMem 3 m
  | .jmpEw e => 0xFF :: encodeRm16 4 e
  | .jmpMp m => 0xFF :: encodeMem 5 m
  | .pushEw e => 0xFF :: encodeRm16 6 e
  | .clc => [0xF8]
  | .stc => [0xF9]
  | .cli => [0xFA]
  | .sti => [0xFB]
  | .cld => [0xFC]
  | .std => [0xFD]

/-! ## Words as the opcode table numbers them -/

/-- The bytes of an instruction whose bits are `w`, the first byte being bits 7..0: `nbits` bits in whole bytes, then zeros
for what the table gives no bits to (up to the longest row after a prefix). -/
def tableBytes (nbits w : Nat) : List Byte :=
  (List.range ((nbits + 7) / 8)).map (fun k => BitVec.ofNat 8 ((w % 2 ^ nbits) >>> (8 * k))) ++ List.replicate 7 0

/-- What the decoder reads from such an instruction. -/
def decodeTableWord (nbits w : Nat) : Option Instr :=
  match decode (tableBytes nbits w) with
  | .ok i _ => some i
  | _ => none

end Sys2Proof
end

