-- ==== Sys2Proof/Config.lean ====
section
/-! DEFINITION. What an implementation fixes, and the free values. The parameters of 00_scope.md R5 marked OPEN are opaque
constants: no proof can see their value, so a claim holds whatever they are. Those with a decided value have it. -/

namespace Sys2Proof.Config

/-- The source of draws (00_scope.md R9): the value of draw number n. Nothing is known about it. A w-bit draw is the low
w bits of the word. Separate draws take separate numbers (the field `draws` of State). Log 4. -/
opaque freeWord : Nat → Word

/-- STI_SHADOW (D20, OPEN): whether the boundary right after STI is inhibited (46_processor_control.md R440). -/
opaque stiShadow : Bool

/-- TRAP_AFTER_SOFTWARE_INT (D21, OPEN): whether single step also traps after an instruction that entered an interrupt
itself (60_exceptions.md R514). -/
opaque trapAfterSoftwareInt : Bool

/-- REP_TRAP_PER_ITERATION (D22, OPEN): whether single step suspends a repeat after each iteration (44_string.md R347). -/
opaque repTrapPerIteration : Bool

/-- DOR_RESET_LEVEL (D32, OPEN): the value of DOR bit 2 that resets the controller (60_exceptions.md R553). -/
opaque dorResetLevel : Bool

/-- FDC_HANDLER (D33, OPEN): the bound operation of each command, from the handler state, the opcode byte and the
parameter bytes to the new handler state and the result bytes (60_exceptions.md R559). A handler state is a Nat: log 11. -/
opaque fdcHandler : Nat → Byte → List Byte → Nat × List Byte

/-- The handler's initial state (70_reset_and_hazards.md R600). -/
opaque fdcInit : Nat

/-- The text `diagnostic_summary` gives, named by a free number (60_exceptions.md R564: any text). Log 17. -/
opaque summaryText : Nat → Nat

/-- What an attached PortDevice other than the FDC does on `read_byte` (47_io.md R455): from its number, its state and the
port to its new state and the byte. Log 10. -/
opaque otherRead : Nat → Nat → Word → Nat × Byte

/-- What another PortDevice does on `write_byte`: from its number, its state, the port and the byte to its new state. -/
opaque otherWrite : Nat → Nat → Word → Byte → Nat

/-- What another PortDevice does on `advance(cycles)`: from its number, its state and the cycles to its new state. -/
opaque otherAdvance : Nat → Nat → Nat → Nat

/-- The state of another PortDevice after reset, from its number and its state (70_reset_and_hazards.md R601). -/
opaque otherReset : Nat → Nat → Nat

/-- The initial state of another PortDevice, from its number (70_reset_and_hazards.md R600). Log 10. -/
opaque otherInit : Nat → Nat

/-- IDIV_MOST_NEGATIVE_TRAPS: true by the spec's choice (D42). Log 8. -/
def idivMostNegativeTraps : Bool := true

/-- IMPLEMENTED: the rows that have an executable body, every row by the spec's default (D2, 40_pipeline.md R180). Log 9. -/
def implemented (_ : Instr) : Bool := true

end Sys2Proof.Config
end

