-- ==== Sys2Proof/Machine/State.lean ====
section
/-! DEFINITION. The state of the block (10_state.md R20), the host inputs the step reads (R39), the model's own fields, the
reasons a step can stop, and the state after reset (R40). -/

namespace Sys2Proof.Machine

/-- The nine flags (10_state.md R28). `ifl` is IF, `ofl` is OF. -/
inductive Flag where
  | cf | pf | af | zf | sf | tf | ifl | df | ofl
deriving DecidableEq, Repr

/-- The eight general registers (10_state.md R21). -/
structure Regs where
  ax : Word
  cx : Word
  dx : Word
  bx : Word
  sp : Word
  bp : Word
  si : Word
  di : Word
deriving DecidableEq, Repr

/-- The four segment registers (10_state.md R24). -/
structure Segs where
  es : Word
  cs : Word
  ss : Word
  ds : Word
deriving DecidableEq, Repr

/-- `BoundedQueue<T, N>` (40_pipeline.md R150), held as the index `head` and the queue's sequence, oldest first. By R151
that is the whole state: size is the length, tail is (head + size) mod N, and slot (head + i) mod N holds element i, the
other slots being vacant (R159). Log 15. -/
structure BoundedQueue (α : Type) (n : Nat) where
  head : Nat
  items : List α
deriving DecidableEq, Repr

/-- The cycle engine's states (10_state.md R32, 40_pipeline.md R161). -/
inductive TState where
  | idle | t0 | t1 | t2 | t3 | t4
deriving DecidableEq, Repr

/-- The controller's protocol state (60_exceptions.md R550). -/
inductive Phase where
  | none | command | execution | result
deriving DecidableEq, Repr

/-- The controller's commands (60_exceptions.md R558). -/
inductive FdcCommand where
  | readTrack | specify | senseDriveStatus | writeData | readData | recalibrate | senseInterruptStatus | writeDeletedData
  | readId | readDeletedData | formatTrack | seek | scanEqual | scanLowOrEqual | scanHighOrEqual
deriving DecidableEq, Repr

/-- `active_command` (60_exceptions.md R550): the opcode byte, the command (which names its bound operation), the
remaining parameter count and the parameter bytes received, oldest first. -/
structure ActiveCommand where
  opcode : Byte
  cmd : FdcCommand
  remaining : Nat
  params : List Byte
deriving DecidableEq, Repr

/-- The FloppyController's state (60_exceptions.md R550). -/
structure Fdc where
  phase : Phase
  active : Option ActiveCommand
  /-- The FIFO of result bytes, oldest first. -/
  result : List Byte
  dor : Byte
  hstate : Nat
  /-- The opcode bytes of the invalid commands, oldest first (R561). -/
  log : List Byte
deriving DecidableEq, Repr

/-- An attached PortDevice (47_io.md R451, R455): the floppy controller, or another device with a number, the ports it
owns and an opaque state, whose behaviour is Config's (log 10). -/
inductive Device where
  | fdc (f : Fdc)
  | other (id : Nat) (ports : List Word) (st : Nat)
deriving DecidableEq, Repr

/-- A repeat prefix (30_encoding.md R104): F3 or F2. -/
inductive Rep where
  | repe | repne
deriving DecidableEq, Repr

/-- The context of the instruction in progress: the segment override and the repeat prefix in force (30_encoding.md R105),
IP_start (40_pipeline.md R184), tf_start (R167), and whether the instruction has entered an interrupt itself
(60_exceptions.md R514). The MODEL's own field, idle between calls. Log 3. -/
structure Ctx where
  ovr : Option Seg
  rep : Option Rep
  ipStart : Word
  tfStart : Bool
  entered : Bool
deriving DecidableEq, Repr

/-- The context between calls. -/
def Ctx.idle : Ctx := ⟨none, none, 0, false, false⟩

/-- The registers the host can read by name (70_reset_and_hazards.md R610). -/
inductive RegName where
  | gpr (r : Reg16)
  | seg (sg : Seg)
  | flags
  | ip
deriving DecidableEq, Repr

/-- The interactions of the host with the block (70_reset_and_hazards.md R610), `construct` apart. -/
inductive HostCall where
  /-- `reset()`. -/
  | reset
  /-- `step_cycle()`. -/
  | stepCycle
  /-- `advance_instruction()`. -/
  | advance
  /-- Read a register. -/
  | readReg (n : RegName)
  /-- Write a general register. -/
  | writeGpr (r : Reg16) (v : Word)
  /-- Write a segment register. -/
  | writeSeg (sg : Seg) (v : Word)
  /-- Write IP. -/
  | writeIp (v : Word)
  /-- Write FLAGS. -/
  | writeFlags (v : Word)
  /-- `read_byte` (n = 1) and its multi-byte forms. -/
  | readBytes (a : DWord) (n : Nat)
  /-- `write_byte` (one byte) and its multi-byte forms. -/
  | writeBytes (a : DWord) (bs : List Byte)
  /-- `fetch_byte`. -/
  | fetchByte (a : DWord)
  /-- `fetch_word`. -/
  | fetchWord (a : DWord)
  /-- `compute_physical_address`. -/
  | computePhysical (sg : Seg) (off : Word)
  /-- Read address_latch and last_effective_address. -/
  | readLatch
  /-- Inspect the queue and tstate. -/
  | inspectQueue
  /-- Set a breakpoint. -/
  | setBreakpoint (a : Phys)
  /-- Clear a breakpoint. -/
  | clearBreakpoint (a : Phys)
  /-- A rising edge of NMI. -/
  | nmiEdge
  /-- The level of INTR. -/
  | setIntr (b : Bool)
  /-- The byte the host will give at interrupt acknowledge. -/
  | setIntaVector (v : Byte)
  /-- The level of TEST. -/
  | setTest (b : Bool)
  /-- `diagnostic_summary()` of device number k of the list. -/
  | diagnosticSummary (k : Nat)
  /-- A port read of one byte, or of two when `word`. -/
  | portRead (p : Word) (word : Bool)
  /-- A port write of one byte (the low byte of v), or of two when `word`. -/
  | portWrite (p : Word) (word : Bool) (v : Word)
deriving DecidableEq, Repr

/-- What a host call returned (00_scope.md R10, 40_pipeline.md R175, 70_reset_and_hazards.md R610). -/
inductive Reply where
  | nothing
  | okay
  | breakpoint
  | halted
  | outOfBounds
  | word (v : Word)
  | bytes (bs : List Byte)
  | phys (a : DWord)
  | latches (a : Phys) (e : DWord)
  | queue (bs : List Byte) (t : TState)
  | text (n : Nat)
deriving DecidableEq, Repr

/-- The state. The fields from `regs` to `devices` are the block's (10_state.md R20); `intr`, `intaVector`, `test` and
`breakpoints` are the host's inputs and configuration (R39); `ctx`, `draws`, `agenda` and `reply` are the model's own. -/
structure State where
  regs : Regs
  segs : Segs
  /-- The fetch pointer (R26). -/
  pc : Word
  flags : Word
  queue : BoundedQueue Byte 4
  tstate : TState
  deliveryPending : Bool
  /-- The memory store (20_memory.md R60): rising addresses, no byte that is zero (log 18). -/
  mem : List Host.Cell
  /-- address_latch (R33). -/
  latch : Phys
  /-- last_effective_address (R34). -/
  lastEa : DWord
  halted : Bool
  nmiLatched : Bool
  inhibit : Bool
  bpSkip : Bool
  /-- DEVICES, in list order (47_io.md R451). -/
  devices : List Device
  /-- The level of INTR (60_exceptions.md R510). -/
  intr : Bool
  /-- INTA_VECTOR (60_exceptions.md R510). -/
  intaVector : Byte
  /-- Whether TEST is asserted (46_processor_control.md R437). -/
  test : Bool
  /-- BREAKPOINTS (40_pipeline.md R170): no repeats. -/
  breakpoints : List Phys
  ctx : Ctx
  /-- How many draws have been made (00_scope.md R9). The MODEL's own field: log 4. -/
  draws : Nat
  /-- The host calls still to be made, first to last. The MODEL's own field: log 1. -/
  agenda : List HostCall
  /-- What the last host call returned. The MODEL's own field: log 2. -/
  reply : Reply
deriving DecidableEq, Repr

/-- Why the machine stops with a fault. -/
inductive Fault where
  /-- `UnimplementedOpcode(op)` (40_pipeline.md R180): raised by `advance_instruction` when the decoded row is not in
  IMPLEMENTED; a fault of the configuration (00_scope.md R10). Never with the default, which is every row. Safe. -/
  | unimplementedOpcode (op : Byte)
deriving DecidableEq, Repr

/-- Why the model gives no meaning. -/
inductive Refusal where
  /-- An instruction whose arm of exec has no meaning yet. Safe. No arm is so. -/
  | notModelled (mnemonic : String)
  /-- `UnknownOpcode(op)` (40_pipeline.md R180, 30_encoding.md R140): raised by `advance_instruction` when the bytes match
  no row of the opcode table, a repeat prefix stands before an opcode that is no string instruction, or 65,536 prefix bytes
  follow each other (R105). The spec demands the refusal (00_scope.md R10). Safe. -/
  | unknownOpcode (op : Byte)
deriving DecidableEq, Repr

/-- What an instruction's meaning answers. -/
abbrev Result := Host.Outcome State Fault Refusal

/-- The FloppyController after construction (10_state.md R40, 70_reset_and_hazards.md R600). -/
def Fdc.initial : Fdc := ⟨.none, none, [], 0, Config.fdcInit, []⟩

/-- A device in its initial state (70_reset_and_hazards.md R600): what it is and the ports it owns are the configuration's, its
state is not. -/
def Device.initial : Device → Device
  | .fdc _ => .fdc Fdc.initial
  | .other id ports _ => .other id ports (Config.otherInit id)

/-- Construction from a list of devices (70_reset_and_hazards.md R600), each put into its initial state: the "after
construction" column of 10_state.md R40. The general registers are the draws 0 to 7 and INTA_VECTOR the draw 8 (logs 5 and 6). -/
def State.construct (devices : List Device) : State where
  regs := ⟨Config.freeWord 0, Config.freeWord 1, Config.freeWord 2, Config.freeWord 3, Config.freeWord 4,
    Config.freeWord 5, Config.freeWord 6, Config.freeWord 7⟩
  segs := ⟨0, 0xFFFF, 0, 0⟩
  pc := 0
  flags := 0xF002
  queue := ⟨0, []⟩
  tstate := .idle
  deliveryPending := false
  mem := []
  latch := 0
  lastEa := 0
  halted := false
  nmiLatched := false
  inhibit := false
  bpSkip := false
  devices := devices.map Device.initial
  intr := false
  intaVector := (Config.freeWord 8).setWidth 8
  test := true
  breakpoints := []
  ctx := Ctx.idle
  draws := 9
  agenda := []
  reply := .nothing

/-- The machine right after reset, with the default DEVICES, one FloppyController (10_state.md R40, 47_io.md R451). -/
def State.reset : State := State.construct [.fdc Fdc.initial]

end Sys2Proof.Machine
end

