-- ==== Sys2Proof/Machine/Flags.lean ====
section
/-! DEFINITION. FLAGS, the draws, and the flag computations of the instructions (10_state.md R28 to R30, 00_scope.md R9,
42_arithmetic.md R250, R251, 43_logic.md R300 to R312). -/

namespace Sys2Proof.Machine

/-! ## FLAGS -/

/-- The bit of FLAGS that holds a flag (10_state.md R28). -/
def Flag.bit : Flag → Nat
  | .cf => 0 | .pf => 2 | .af => 4 | .zf => 6 | .sf => 7 | .tf => 8 | .ifl => 9 | .df => 10 | .ofl => 11

/-- `FLAGS.f`. -/
def State.flag (s : State) (f : Flag) : Bool := s.flags.getLsbD f.bit

/-- `FLAGS.f <- b`. -/
def State.setFlag (s : State) (f : Flag) (b : Bool) : State :=
  { s with flags := if b then s.flags ||| BitVec.twoPow 16 f.bit else s.flags &&& ~~~(BitVec.twoPow 16 f.bit) }

/-- What a 16-bit write of FLAGS stores: `(v & 0x0FD5) | 0xF002` (10_state.md R29). -/
def fixFlags (v : Word) : Word := (v &&& 0x0FD5) ||| 0xF002

/-- A 16-bit write of FLAGS (10_state.md R29). -/
def State.writeFlags (s : State) (v : Word) : State := { s with flags := fixFlags v }

/-! ## Draws -/

/-- A fresh draw: the word of draw number `draws`, which advances (00_scope.md R9). A narrower draw is its low bits. -/
def State.draw (s : State) : Word × State := (Config.freeWord s.draws, { s with draws := s.draws + 1 })

/-- `FLAGS.f <- draw_1()`. -/
def State.drawFlag (s : State) (f : Flag) : State := (s.draw.2).setFlag f (s.draw.1.getLsbD 0)

/-- A draw for each flag of a list, in order. -/
def State.drawFlags (s : State) : List Flag → State
  | [] => s
  | f :: fs => (s.drawFlag f).drawFlags fs

/-! ## The result flags -/

/-- `Parity(v)`: whether v[7:0] holds an even number of 1 bits (42_arithmetic.md R250). -/
def parity {w : Nat} (v : BitVec w) : Bool := (List.range 8).countP (fun k => v.getLsbD k) % 2 == 0

/-- `SZP(w, r)` (42_arithmetic.md R250). -/
def State.setSzp {w : Nat} (s : State) (r : BitVec w) : State :=
  ((s.setFlag .sf r.msb).setFlag .zf (r == 0)).setFlag .pf (parity r)

/-- The result of `AddC(w, a, b, c)` (42_arithmetic.md R251). -/
def addCResult {w : Nat} (a b : BitVec w) (c : Bool) : BitVec w := BitVec.ofNat w (a.toNat + b.toNat + c.toNat)

/-- `AddC(w, a, b, c)`: the result, and the state with its flags (42_arithmetic.md R251). -/
def State.addC {w : Nat} (s : State) (a b : BitVec w) (c : Bool) : BitVec w × State :=
  let r := addCResult a b c
  (r, (((s.setFlag .cf (decide (2 ^ w ≤ a.toNat + b.toNat + c.toNat))).setFlag .af ((a ^^^ b ^^^ r).getLsbD 4)).setFlag
    .ofl ((a ^^^ r) &&& (b ^^^ r)).msb).setSzp r)

/-- The result of `SubB(w, a, b, c)` (42_arithmetic.md R251). -/
def subBResult {w : Nat} (a b : BitVec w) (c : Bool) : BitVec w :=
  BitVec.ofInt w ((a.toNat : Int) - (b.toNat : Int) - (c.toNat : Int))

/-- `SubB(w, a, b, c)`: the result, and the state with its flags (42_arithmetic.md R251). -/
def State.subB {w : Nat} (s : State) (a b : BitVec w) (c : Bool) : BitVec w × State :=
  let r := subBResult a b c
  (r, (((s.setFlag .cf (decide ((a.toNat : Int) - (b.toNat : Int) - (c.toNat : Int) < 0))).setFlag .af
    ((a ^^^ b ^^^ r).getLsbD 4)).setFlag .ofl ((a ^^^ b) &&& (a ^^^ r)).msb).setSzp r)

/-- The flags of AND, OR, XOR and TEST for the result r: CF and OF cleared, SZP, AF a draw (43_logic.md R300 to R303). -/
def State.logicFlags {w : Nat} (s : State) (r : BitVec w) : State :=
  (((s.setFlag .cf false).setFlag .ofl false).setSzp r).drawFlag .af

/-- The eight two-operand operations, in the order of their numbers (42_arithmetic.md R252). -/
inductive AluOp where
  | add | or | adc | sbb | and | sub | xor | cmp
deriving DecidableEq, Repr

/-- The result of a two-operand operation and the state with its flags (42_arithmetic.md R253 to R257, 43_logic.md R300 to
R302). -/
def State.alu {w : Nat} (s : State) (op : AluOp) (a b : BitVec w) : BitVec w × State :=
  match op with
  | .add => s.addC a b false
  | .adc => s.addC a b (s.flag .cf)
  | .sub | .cmp => s.subB a b false
  | .sbb => s.subB a b (s.flag .cf)
  | .and => (a &&& b, s.logicFlags (a &&& b))
  | .or => (a ||| b, s.logicFlags (a ||| b))
  | .xor => (a ^^^ b, s.logicFlags (a ^^^ b))

/-- Whether the operation writes its destination: all but CMP (42_arithmetic.md R252). -/
def AluOp.writes : AluOp → Bool
  | .cmp => false
  | _ => true

/-! ## Shifts and rotates -/

/-- The shift and rotate operations (30_encoding.md R122). -/
inductive ShiftOp where
  | rol | ror | rcl | rcr | shl | shr | sar
deriving DecidableEq, Repr

/-- `Step`: one bit of a shift or rotate, on the operand and CF (43_logic.md R306 to R312). -/
def ShiftOp.bitStep {w : Nat} (op : ShiftOp) (x : BitVec w) (cf : Bool) : BitVec w × Bool :=
  match op with
  | .rol => ((x <<< 1) ||| BitVec.ofNat w x.msb.toNat, x.msb)
  | .ror => ((x >>> 1) ||| (BitVec.ofNat w (x.getLsbD 0).toNat <<< (w - 1)), x.getLsbD 0)
  | .rcl => ((x <<< 1) ||| BitVec.ofNat w cf.toNat, x.msb)
  | .rcr => ((x >>> 1) ||| (BitVec.ofNat w cf.toNat <<< (w - 1)), x.getLsbD 0)
  | .shl => (x <<< 1, x.msb)
  | .shr => (x >>> 1, x.getLsbD 0)
  | .sar => ((x >>> 1) ||| (BitVec.ofNat w x.msb.toNat <<< (w - 1)), x.getLsbD 0)

/-- `repeat cnt times: x <- Step(op, x)` (43_logic.md R305). -/
def ShiftOp.steps {w : Nat} (op : ShiftOp) : Nat → BitVec w → Bool → BitVec w × Bool
  | 0, x, cf => (x, cf)
  | k + 1, x, cf => op.steps k (op.bitStep x cf).1 (op.bitStep x cf).2

/-- `OF1(op, orig, x)`, where `cf` is CF after the step (43_logic.md R306 to R312). -/
def ShiftOp.of1 {w : Nat} (op : ShiftOp) (orig x : BitVec w) (cf : Bool) : Bool :=
  match op with
  | .rol | .rcl | .shl => x.msb ^^ cf
  | .ror | .rcr => x.msb ^^ x.getLsbD (w - 2)
  | .shr => orig.msb
  | .sar => false

/-- Whether the operation is a shift, which sets SF, ZF and PF and draws AF (43_logic.md R305). -/
def ShiftOp.isShift : ShiftOp → Bool
  | .shl | .shr | .sar => true
  | _ => false

/-- The result of a shift or rotate by a count that is not 0, and the state with its flags (43_logic.md R305). -/
def State.shiftBy {w : Nat} (s : State) (op : ShiftOp) (cnt : Nat) (orig : BitVec w) : BitVec w × State :=
  let x := (op.steps cnt orig (s.flag .cf)).1
  let c := (op.steps cnt orig (s.flag .cf)).2
  let s1 := s.setFlag .cf c
  let s2 := if cnt = 1 then s1.setFlag .ofl (op.of1 orig x c) else s1.drawFlag .ofl
  (x, if op.isShift then (s2.setSzp x).drawFlag .af else s2)

end Sys2Proof.Machine
end

