-- ==== Sys2Proof/Machine/Queue.lean ====
section
/-! DEFINITION. The operations of `BoundedQueue<T, N>` (40_pipeline.md R150 to R160). -/

namespace Sys2Proof.Machine

variable {α : Type} {n : Nat}

/-- The queue at its creation (R150): empty, head 0. -/
def BoundedQueue.empty : BoundedQueue α n := ⟨0, []⟩

/-- `size` (R150). -/
def BoundedQueue.size (q : BoundedQueue α n) : Nat := q.items.length

/-- `tail = (head + size) mod N` (R151). -/
def BoundedQueue.tail (q : BoundedQueue α n) : Nat := (q.head + q.size) % n

/-- `full() ⇔ size == capacity` (R151). -/
def BoundedQueue.full (q : BoundedQueue α n) : Bool := q.size == n

/-- `store[k]`, `none` when the slot is vacant: element i is in slot (head + i) mod N (R151). -/
def BoundedQueue.slot (q : BoundedQueue α n) (k : Nat) : Option α := q.items[(k + n - q.head) % n]?

/-- The invariants of R151 that the representation leaves to keep. -/
def BoundedQueue.wf (q : BoundedQueue α n) : Bool := decide (q.head < n) && decide (q.items.length ≤ n)

/-- `push(v)`: `none` is `Full`, and then nothing changes (R152). -/
def BoundedQueue.push (q : BoundedQueue α n) (v : α) : Option (BoundedQueue α n) :=
  if q.full then none else some { q with items := q.items ++ [v] }

/-- `pop()`: `none` when empty (R153). -/
def BoundedQueue.pop (q : BoundedQueue α n) : Option (α × BoundedQueue α n) :=
  match q.items with
  | [] => none
  | v :: rest => some (v, ⟨(q.head + 1) % n, rest⟩)

/-- `peek()` (R154). -/
def BoundedQueue.peek (q : BoundedQueue α n) : Option α := q.items.head?

/-- `back()` (R154). -/
def BoundedQueue.back (q : BoundedQueue α n) : Option α := q.items.getLast?

/-- `drain_part(k)`: `pop()` repeated min(k, size) times (R156). -/
def BoundedQueue.drainPart : Nat → BoundedQueue α n → List α × BoundedQueue α n
  | 0, q => ([], q)
  | k + 1, q =>
    match q.pop with
    | none => ([], q)
    | some (v, q') => (v :: (BoundedQueue.drainPart k q').1, (BoundedQueue.drainPart k q').2)

/-- `drain()`: `pop()` repeated until the queue is empty (R155). -/
def BoundedQueue.drain (q : BoundedQueue α n) : List α × BoundedQueue α n := q.drainPart q.size

/-- `try_extend(seq)`: pushes until a push fails or seq ends, and says how many went in (R158). -/
def BoundedQueue.tryExtend (q : BoundedQueue α n) : List α → Nat × BoundedQueue α n
  | [] => (0, q)
  | v :: vs =>
    match q.push v with
    | none => (0, q)
    | some q' => ((BoundedQueue.tryExtend q' vs).1 + 1, (BoundedQueue.tryExtend q' vs).2)

/-- `extend(seq)`: all or nothing; `none` is `Full` (R157). -/
def BoundedQueue.extend (q : BoundedQueue α n) (vs : List α) : Option (BoundedQueue α n) :=
  if n < q.size + vs.length then none else some (q.tryExtend vs).2

end Sys2Proof.Machine
end

