-- ==== Sys2Proof/Machine/Ops.lean ====
section
/-! DEFINITION. The named operations over memory, registers and the instruction pointer: address translation and data access
(20_memory.md R61 to R71), the register files (10_state.md R21 to R24), control transfer (40_pipeline.md R165), the stack
(41_data_transfer.md R210, R211), interrupt entry (60_exceptions.md R520) and the return from it (45_control.md R409). -/

namespace Sys2Proof.Machine

/-! ## Memory (20_memory.md R60) -/

/-- The byte at an address: 0x00 where nothing is listed, the construction value (R60, R85; log 18). -/
def readMem : List Host.Cell → Nat → Byte
  | [], _ => 0
  | (k, v) :: m, a => if k = a then v else readMem m a

/-- Puts a byte at an address: the list stays sorted, and a zero byte is not listed (log 18). -/
def writeMem : List Host.Cell → Nat → Byte → List Host.Cell
  | [], a, b => if b = 0 then [] else [(a, b)]
  | (k, v) :: m, a, b =>
    if a < k then (if b = 0 then (k, v) :: m else (a, b) :: (k, v) :: m)
    else if a = k then (if b = 0 then m else (a, b) :: m)
    else (k, v) :: writeMem m a b

/-- The canonical form: addresses strictly rising and below 2^20, no zero byte listed. -/
def Memory.wf : List Host.Cell → Bool
  | [] => true
  | [(k, v)] => decide (k < 0x100000) && v != 0
  | (k, v) :: (k', v') :: m => decide (k < k') && v != 0 && Memory.wf ((k', v') :: m)

/-- `mem[a]`. -/
def State.memByte (s : State) (a : Phys) : Byte := readMem s.mem a.toNat

/-- `mem[a] <- b`. -/
def State.setMemByte (s : State) (a : Phys) (b : Byte) : State := { s with mem := writeMem s.mem a.toNat b }

/-! ## Registers (10_state.md R21, R22, R24) -/

/-- `R16[r]`. -/
def State.reg16 (s : State) : Reg16 → Word
  | .ax => s.regs.ax | .cx => s.regs.cx | .dx => s.regs.dx | .bx => s.regs.bx
  | .sp => s.regs.sp | .bp => s.regs.bp | .si => s.regs.si | .di => s.regs.di

/-- A register file with one register written. -/
def Regs.set (r : Regs) (n : Reg16) (v : Word) : Regs :=
  match n with
  | .ax => { r with ax := v } | .cx => { r with cx := v } | .dx => { r with dx := v } | .bx => { r with bx := v }
  | .sp => { r with sp := v } | .bp => { r with bp := v } | .si => { r with si := v } | .di => { r with di := v }

/-- `R16[r] <- v`. -/
def State.setReg16 (s : State) (r : Reg16) (v : Word) : State := { s with regs := s.regs.set r v }

/-- The 16-bit register that holds an 8-bit register (10_state.md R22). -/
def Reg8.whole : Reg8 → Reg16
  | .al | .ah => .ax
  | .cl | .ch => .cx
  | .dl | .dh => .dx
  | .bl | .bh => .bx

/-- Whether an 8-bit register is the high half (10_state.md R22). -/
def Reg8.high : Reg8 → Bool
  | .ah | .ch | .dh | .bh => true
  | _ => false

/-- `R8[r]`. -/
def State.reg8 (s : State) (r : Reg8) : Byte := if Reg8.high r then hi8 (s.reg16 (Reg8.whole r)) else lo8 (s.reg16 (Reg8.whole r))

/-- `R8[r] <- v`: the other half is unchanged (10_state.md R22). -/
def State.setReg8 (s : State) (r : Reg8) (v : Byte) : State :=
  s.setReg16 (Reg8.whole r)
    (if Reg8.high r then join16 v (lo8 (s.reg16 (Reg8.whole r))) else join16 (hi8 (s.reg16 (Reg8.whole r))) v)

/-- `SREG[sg]`. -/
def State.seg (s : State) : Seg → Word
  | .es => s.segs.es | .cs => s.segs.cs | .ss => s.segs.ss | .ds => s.segs.ds

/-- `SREG[sg] <- v`. -/
def State.setSeg (s : State) (sg : Seg) (v : Word) : State :=
  match sg with
  | .es => { s with segs := { s.segs with es := v } }
  | .cs => { s with segs := { s.segs with cs := v } }
  | .ss => { s with segs := { s.segs with ss := v } }
  | .ds => { s with segs := { s.segs with ds := v } }

/-! ## Address translation and data access (20_memory.md R61 to R71) -/

/-- `phys(seg, off)` (R61). -/
def phys (seg off : Word) : Phys := ((seg.setWidth 32 <<< 4) + off.setWidth 32).setWidth 20

/-- `PA` for a segment value: the latch and its mirror take the address (R62). -/
def State.pa (s : State) (seg off : Word) : Phys × State :=
  (phys seg off, { s with latch := phys seg off, lastEa := (phys seg off).setWidth 32 })

/-- `MemRead(s:off, 1)` for a segment value (R70). -/
def State.read8 (s : State) (seg off : Word) : Byte × State := (s.memByte (phys seg off), (s.pa seg off).2)

/-- `MemRead(s:off, 2)`: low byte first, the second offset wrapping in the segment (R70). -/
def State.read16 (s : State) (seg off : Word) : Word × State :=
  let lo := s.read8 seg off
  let hi := lo.2.read8 seg (off + 1)
  (join16 hi.1 lo.1, hi.2)

/-- `MemWrite(s:off, 1, v)` (R71). -/
def State.write8 (s : State) (seg off : Word) (v : Byte) : State := (s.pa seg off).2.setMemByte (phys seg off) v

/-- `MemWrite(s:off, 2, v)`: low byte first (R71). -/
def State.write16 (s : State) (seg off : Word) (v : Word) : State :=
  (s.write8 seg off (lo8 v)).write8 seg (off + 1) (hi8 v)

/-! ## The instruction pointer and control transfer -/

/-- The execution IP (10_state.md R27). -/
def State.ip (s : State) : Word := s.pc - BitVec.ofNat 16 s.queue.size

/-- `Flush()` (40_pipeline.md R165). -/
def State.flush (s : State) : State := { s with queue := s.queue.drain.2, tstate := .idle, deliveryPending := false }

/-- `pc <- target` (00_scope.md R7). -/
def State.jump (s : State) (target : Word) : State := { s.flush with pc := target }

/-- `CS:IP <- (sg, off)` (00_scope.md R7). -/
def State.farJump (s : State) (sg off : Word) : State := (s.setSeg .cs sg).jump off

/-! ## The stack (41_data_transfer.md R210, R211) -/

/-- `Push16(v)` (R210): the low byte at the new SS:SP, the high byte at the next offset of the segment. For SP = 0001 before
the push, R209 says that the low byte is at offset 0000, while R210, 20_memory.md R71 and the vector DAT-16 put it at FFFF:
DESIGN CHOICE, the model follows these three (log 27). -/
def State.push16 (s : State) (v : Word) : State :=
  let s1 := s.setReg16 .sp (s.reg16 .sp - 2)
  s1.write16 (s1.seg .ss) (s1.reg16 .sp) v

/-- `Pop16()`. -/
def State.pop16 (s : State) : Word × State :=
  let r := s.read16 (s.seg .ss) (s.reg16 .sp)
  (r.1, r.2.setReg16 .sp (r.2.reg16 .sp + 2))

/-! ## Taking an interrupt and returning from it -/

/-- `Interrupt(n)` (60_exceptions.md R520): saves FLAGS, CS and IP on the stack, clears IF and TF, reads the vector's
offset and segment from 0000:4n, clears `halted` and jumps. -/
def State.interrupt (s : State) (n : Byte) : State :=
  let s1 := s.push16 s.flags
  let s2 := (s1.setFlag .ifl false).setFlag .tf false
  let s3 := s2.push16 (s2.seg .cs)
  let s4 := s3.push16 s3.ip
  let o := s4.read16 0 (zext16 n * 4)
  let sg := o.2.read16 0 (zext16 n * 4 + 2)
  { sg.2 with halted := false }.farJump sg.1 o.1

/-- `raise Interrupt(n)` in an instruction (60_exceptions.md R520): entry, and the context records that the instruction
entered an interrupt itself (R514). -/
def State.raise (s : State) (n : Byte) : State :=
  { s with ctx := { s.ctx with entered := true } }.interrupt n

/-- The return from an interrupt (45_control.md R409): pops IP, CS and FLAGS. -/
def State.interruptReturn (s : State) : State :=
  let o := s.pop16
  let sg := o.2.pop16
  let f := sg.2.pop16
  (f.2.writeFlags f.1).farJump sg.1 o.1

end Sys2Proof.Machine
end

