-- ==== Sys2Proof/Machine/Operands.lean ====
section
/-! DEFINITION. Every operand form: effective addresses and segments (30_encoding.md R109 to R112), and reading and writing
an operand at the place it names (41_data_transfer.md R200). -/

namespace Sys2Proof.Machine

/-- The sum of registers of a base (30_encoding.md R110). -/
def State.baseSum (s : State) : EaBase → Word
  | .bxSi => s.reg16 .bx + s.reg16 .si
  | .bxDi => s.reg16 .bx + s.reg16 .di
  | .bpSi => s.reg16 .bp + s.reg16 .si
  | .bpDi => s.reg16 .bp + s.reg16 .di
  | .si => s.reg16 .si
  | .di => s.reg16 .di
  | .bp => s.reg16 .bp
  | .bx => s.reg16 .bx

/-- The 16-bit value of a displacement (30_encoding.md R110, R113). -/
def dispWord : Disp → Word
  | .none => 0
  | .d8 d => sext16 d
  | .d16 d => d

/-- The effective address of a memory operand (30_encoding.md R110). -/
def State.ea (s : State) : MemOp → Word
  | .direct off => off
  | .base b d => s.baseSum b + dispWord d

/-- Whether a base uses BP (30_encoding.md R111). -/
def usesBp : EaBase → Bool
  | .bpSi | .bpDi | .bp => true
  | _ => false

/-- The default segment of a memory operand: SS for a BP base, else DS (30_encoding.md R111). -/
def defaultSeg : MemOp → Seg
  | .direct _ => .ds
  | .base b _ => if usesBp b then .ss else .ds

/-- `ovr(sg)`: the segment of the instruction's override, or `sg` (41_data_transfer.md R200). -/
def State.ovr (s : State) (sg : Seg) : Seg := s.ctx.ovr.getD sg

/-- The segment value of a memory operand (30_encoding.md R111, R112). -/
def State.memSeg (s : State) (m : MemOp) : Word := s.seg (s.ovr (defaultSeg m))

/-- Where an operand of the file `R` is: a register, or a logical address (segment value and offset), computed once from the
registers at the instruction's start (41_data_transfer.md R200). -/
inductive Loc (R : Type) where
  | reg (r : R)
  | mem (seg off : Word)
deriving DecidableEq, Repr

/-- The place an r/m operand names (30_encoding.md R111). -/
def State.loc {R : Type} (s : State) : Rm R → Loc R
  | .reg r => .reg r
  | .mem m => .mem (s.memSeg m) (s.ea m)

/-- Reads a byte operand. -/
def State.readLoc8 (s : State) : Loc Reg8 → Byte × State
  | .reg r => (s.reg8 r, s)
  | .mem seg off => s.read8 seg off

/-- Reads a word operand. -/
def State.readLoc16 (s : State) : Loc Reg16 → Word × State
  | .reg r => (s.reg16 r, s)
  | .mem seg off => s.read16 seg off

/-- Writes a byte operand. -/
def State.writeLoc8 (s : State) (l : Loc Reg8) (v : Byte) : State :=
  match l with
  | .reg r => s.setReg8 r v
  | .mem seg off => s.write8 seg off v

/-- Writes a word operand. -/
def State.writeLoc16 (s : State) (l : Loc Reg16) (v : Word) : State :=
  match l with
  | .reg r => s.setReg16 r v
  | .mem seg off => s.write16 seg off v

/-- `Eb` read as a value. -/
def State.readRm8 (s : State) (e : Rm8) : Byte × State := s.readLoc8 (s.loc e)

/-- `Ew` read as a value. -/
def State.readRm16 (s : State) (e : Rm16) : Word × State := s.readLoc16 (s.loc e)

/-- The far pointer at a memory operand: the offset word, then the segment word at offset + 2 (20_memory.md R70). The pair
is (offset, segment). -/
def State.readFar (s : State) (m : MemOp) : (Word × Word) × State :=
  let o := s.read16 (s.memSeg m) (s.ea m)
  let sg := o.2.read16 (s.memSeg m) (s.ea m + 2)
  ((o.1, sg.1), sg.2)

/-! ## The operand patterns of the two-operand and one-operand instructions -/

/-- A two-operand ALU operation on bytes: dst is read, combined with src and written, CMP apart (42_arithmetic.md R252). -/
def State.alu8 (s : State) (op : AluOp) (dst : Loc Reg8) (src : Byte) : State :=
  let a := s.readLoc8 dst
  let r := a.2.alu op a.1 src
  if op.writes then r.2.writeLoc8 dst r.1 else r.2

/-- A two-operand ALU operation on words (42_arithmetic.md R252). -/
def State.alu16 (s : State) (op : AluOp) (dst : Loc Reg16) (src : Word) : State :=
  let a := s.readLoc16 dst
  let r := a.2.alu op a.1 src
  if op.writes then r.2.writeLoc16 dst r.1 else r.2

/-- The form Eb,Gb. -/
def State.aluEbGb (s : State) (op : AluOp) (e : Rm8) (g : Reg8) : State := s.alu8 op (s.loc e) (s.reg8 g)

/-- The form Ew,Gw. -/
def State.aluEwGw (s : State) (op : AluOp) (e : Rm16) (g : Reg16) : State := s.alu16 op (s.loc e) (s.reg16 g)

/-- The form Gb,Eb. -/
def State.aluGbEb (s : State) (op : AluOp) (g : Reg8) (e : Rm8) : State :=
  (s.readRm8 e).2.alu8 op (.reg g) (s.readRm8 e).1

/-- The form Gw,Ew. -/
def State.aluGwEw (s : State) (op : AluOp) (g : Reg16) (e : Rm16) : State :=
  (s.readRm16 e).2.alu16 op (.reg g) (s.readRm16 e).1

/-- The forms AL,Ib. -/
def State.aluAlIb (s : State) (op : AluOp) (i : Byte) : State := s.alu8 op (.reg .al) i

/-- The forms AX,Iw. -/
def State.aluAxIw (s : State) (op : AluOp) (i : Word) : State := s.alu16 op (.reg .ax) i

/-- The forms Eb,Ib (80, 82). -/
def State.aluEbIb (s : State) (op : AluOp) (e : Rm8) (i : Byte) : State := s.alu8 op (s.loc e) i

/-- The forms Ew,Iw (81), and Ew,Ib with the byte sign-extended (83). -/
def State.aluEwIw (s : State) (op : AluOp) (e : Rm16) (i : Word) : State := s.alu16 op (s.loc e) i

/-- TEST of two bytes: the flags of AND, nothing written (43_logic.md R303). -/
def State.test8 (s : State) (dst : Loc Reg8) (src : Byte) : State :=
  let a := s.readLoc8 dst
  (a.2.alu .and a.1 src).2

/-- TEST of two words (43_logic.md R303). -/
def State.test16 (s : State) (dst : Loc Reg16) (src : Word) : State :=
  let a := s.readLoc16 dst
  (a.2.alu .and a.1 src).2

/-- INC or DEC of a byte operand: `r` is AddC or SubB with 1, and CF is kept (42_arithmetic.md R258, R259). -/
def State.incDec8 (s : State) (down : Bool) (l : Loc Reg8) : State :=
  let a := s.readLoc8 l
  let r := if down then a.2.subB a.1 1 false else a.2.addC a.1 1 false
  (r.2.setFlag .cf (s.flag .cf)).writeLoc8 l r.1

/-- INC or DEC of a word operand (42_arithmetic.md R258, R259). -/
def State.incDec16 (s : State) (down : Bool) (l : Loc Reg16) : State :=
  let a := s.readLoc16 l
  let r := if down then a.2.subB a.1 1 false else a.2.addC a.1 1 false
  (r.2.setFlag .cf (s.flag .cf)).writeLoc16 l r.1

/-- A shift or rotate of a byte operand by `cnt`: a count of 0 reads the operand and changes nothing else (43_logic.md
R305). -/
def State.shift8 (s : State) (op : ShiftOp) (e : Rm8) (cnt : Nat) : State :=
  let a := s.readRm8 e
  if cnt = 0 then a.2
  else
    let r := a.2.shiftBy op cnt a.1
    r.2.writeLoc8 (s.loc e) r.1

/-- A shift or rotate of a word operand by `cnt` (43_logic.md R305). -/
def State.shift16 (s : State) (op : ShiftOp) (e : Rm16) (cnt : Nat) : State :=
  let a := s.readRm16 e
  if cnt = 0 then a.2
  else
    let r := a.2.shiftBy op cnt a.1
    r.2.writeLoc16 (s.loc e) r.1

/-- The count CL, all 8 bits of it (43_logic.md R305). -/
def State.clCount (s : State) : Nat := (s.reg8 .cl).toNat

end Sys2Proof.Machine
end

