-- ==== Sys2Proof/Machine/Alu.lean ====
section
/-! DEFINITION. The two-operand ALU instructions ADD, OR, ADC, SBB, AND, SUB, XOR and CMP in all their forms (42_arithmetic.md
R252 to R257, 43_logic.md R300 to R302), TEST (R303), INC, DEC, NEG (R258 to R260) and NOT (R304). -/

namespace Sys2Proof.Machine

/-- NEG of a byte: `dst <- SubB(w, 0, dst, 0)` (42_arithmetic.md R260). -/
def State.neg8 (s : State) (l : Loc Reg8) : State :=
  let a := s.readLoc8 l
  let r := a.2.subB 0 a.1 false
  r.2.writeLoc8 l r.1

/-- NEG of a word (42_arithmetic.md R260). -/
def State.neg16 (s : State) (l : Loc Reg16) : State :=
  let a := s.readLoc16 l
  let r := a.2.subB 0 a.1 false
  r.2.writeLoc16 l r.1

/-- NOT of a byte, which writes no flag (43_logic.md R304). -/
def State.not8 (s : State) (l : Loc Reg8) : State :=
  let a := s.readLoc8 l
  a.2.writeLoc8 l (a.1 ^^^ 0xFF)

/-- NOT of a word (43_logic.md R304). -/
def State.not16 (s : State) (l : Loc Reg16) : State :=
  let a := s.readLoc16 l
  a.2.writeLoc16 l (a.1 ^^^ 0xFFFF)

/-- `ADD Eb,Gb` (R253). -/
def execAddEbGb (e : Rm8) (g : Reg8) (s : State) : Result := .next (s.aluEbGb .add e g)

/-- `ADD Ew,Gw` (R253). -/
def execAddEwGw (e : Rm16) (g : Reg16) (s : State) : Result := .next (s.aluEwGw .add e g)

/-- `ADD Gb,Eb` (R253). -/
def execAddGbEb (g : Reg8) (e : Rm8) (s : State) : Result := .next (s.aluGbEb .add g e)

/-- `ADD Gw,Ew` (R253). -/
def execAddGwEw (g : Reg16) (e : Rm16) (s : State) : Result := .next (s.aluGwEw .add g e)

/-- `ADD AL,Ib` (R253). -/
def execAddAlIb (i : Byte) (s : State) : Result := .next (s.aluAlIb .add i)

/-- `ADD AX,Iw` (R253). -/
def execAddAxIw (i : Word) (s : State) : Result := .next (s.aluAxIw .add i)

/-- `OR Eb,Gb` (R301). -/
def execOrEbGb (e : Rm8) (g : Reg8) (s : State) : Result := .next (s.aluEbGb .or e g)

/-- `OR Ew,Gw` (R301). -/
def execOrEwGw (e : Rm16) (g : Reg16) (s : State) : Result := .next (s.aluEwGw .or e g)

/-- `OR Gb,Eb` (R301). -/
def execOrGbEb (g : Reg8) (e : Rm8) (s : State) : Result := .next (s.aluGbEb .or g e)

/-- `OR Gw,Ew` (R301). -/
def execOrGwEw (g : Reg16) (e : Rm16) (s : State) : Result := .next (s.aluGwEw .or g e)

/-- `OR AL,Ib` (R301). -/
def execOrAlIb (i : Byte) (s : State) : Result := .next (s.aluAlIb .or i)

/-- `OR AX,Iw` (R301). -/
def execOrAxIw (i : Word) (s : State) : Result := .next (s.aluAxIw .or i)

/-- `ADC Eb,Gb` (R254). -/
def execAdcEbGb (e : Rm8) (g : Reg8) (s : State) : Result := .next (s.aluEbGb .adc e g)

/-- `ADC Ew,Gw` (R254). -/
def execAdcEwGw (e : Rm16) (g : Reg16) (s : State) : Result := .next (s.aluEwGw .adc e g)

/-- `ADC Gb,Eb` (R254). -/
def execAdcGbEb (g : Reg8) (e : Rm8) (s : State) : Result := .next (s.aluGbEb .adc g e)

/-- `ADC Gw,Ew` (R254). -/
def execAdcGwEw (g : Reg16) (e : Rm16) (s : State) : Result := .next (s.aluGwEw .adc g e)

/-- `ADC AL,Ib` (R254). -/
def execAdcAlIb (i : Byte) (s : State) : Result := .next (s.aluAlIb .adc i)

/-- `ADC AX,Iw` (R254). -/
def execAdcAxIw (i : Word) (s : State) : Result := .next (s.aluAxIw .adc i)

/-- `SBB Eb,Gb` (R256). -/
def execSbbEbGb (e : Rm8) (g : Reg8) (s : State) : Result := .next (s.aluEbGb .sbb e g)

/-- `SBB Ew,Gw` (R256). -/
def execSbbEwGw (e : Rm16) (g : Reg16) (s : State) : Result := .next (s.aluEwGw .sbb e g)

/-- `SBB Gb,Eb` (R256). -/
def execSbbGbEb (g : Reg8) (e : Rm8) (s : State) : Result := .next (s.aluGbEb .sbb g e)

/-- `SBB Gw,Ew` (R256). -/
def execSbbGwEw (g : Reg16) (e : Rm16) (s : State) : Result := .next (s.aluGwEw .sbb g e)

/-- `SBB AL,Ib` (R256). -/
def execSbbAlIb (i : Byte) (s : State) : Result := .next (s.aluAlIb .sbb i)

/-- `SBB AX,Iw` (R256). -/
def execSbbAxIw (i : Word) (s : State) : Result := .next (s.aluAxIw .sbb i)

/-- `AND Eb,Gb` (R300). -/
def execAndEbGb (e : Rm8) (g : Reg8) (s : State) : Result := .next (s.aluEbGb .and e g)

/-- `AND Ew,Gw` (R300). -/
def execAndEwGw (e : Rm16) (g : Reg16) (s : State) : Result := .next (s.aluEwGw .and e g)

/-- `AND Gb,Eb` (R300). -/
def execAndGbEb (g : Reg8) (e : Rm8) (s : State) : Result := .next (s.aluGbEb .and g e)

/-- `AND Gw,Ew` (R300). -/
def execAndGwEw (g : Reg16) (e : Rm16) (s : State) : Result := .next (s.aluGwEw .and g e)

/-- `AND AL,Ib` (R300). -/
def execAndAlIb (i : Byte) (s : State) : Result := .next (s.aluAlIb .and i)

/-- `AND AX,Iw` (R300). -/
def execAndAxIw (i : Word) (s : State) : Result := .next (s.aluAxIw .and i)

/-- `SUB Eb,Gb` (R255). -/
def execSubEbGb (e : Rm8) (g : Reg8) (s : State) : Result := .next (s.aluEbGb .sub e g)

/-- `SUB Ew,Gw` (R255). -/
def execSubEwGw (e : Rm16) (g : Reg16) (s : State) : Result := .next (s.aluEwGw .sub e g)

/-- `SUB Gb,Eb` (R255). -/
def execSubGbEb (g : Reg8) (e : Rm8) (s : State) : Result := .next (s.aluGbEb .sub g e)

/-- `SUB Gw,Ew` (R255). -/
def execSubGwEw (g : Reg16) (e : Rm16) (s : State) : Result := .next (s.aluGwEw .sub g e)

/-- `SUB AL,Ib` (R255). -/
def execSubAlIb (i : Byte) (s : State) : Result := .next (s.aluAlIb .sub i)

/-- `SUB AX,Iw` (R255). -/
def execSubAxIw (i : Word) (s : State) : Result := .next (s.aluAxIw .sub i)

/-- `XOR Eb,Gb` (R302). -/
def execXorEbGb (e : Rm8) (g : Reg8) (s : State) : Result := .next (s.aluEbGb .xor e g)

/-- `XOR Ew,Gw` (R302). -/
def execXorEwGw (e : Rm16) (g : Reg16) (s : State) : Result := .next (s.aluEwGw .xor e g)

/-- `XOR Gb,Eb` (R302). -/
def execXorGbEb (g : Reg8) (e : Rm8) (s : State) : Result := .next (s.aluGbEb .xor g e)

/-- `XOR Gw,Ew` (R302). -/
def execXorGwEw (g : Reg16) (e : Rm16) (s : State) : Result := .next (s.aluGwEw .xor g e)

/-- `XOR AL,Ib` (R302). -/
def execXorAlIb (i : Byte) (s : State) : Result := .next (s.aluAlIb .xor i)

/-- `XOR AX,Iw` (R302). -/
def execXorAxIw (i : Word) (s : State) : Result := .next (s.aluAxIw .xor i)

/-- `CMP Eb,Gb` (R257). -/
def execCmpEbGb (e : Rm8) (g : Reg8) (s : State) : Result := .next (s.aluEbGb .cmp e g)

/-- `CMP Ew,Gw` (R257). -/
def execCmpEwGw (e : Rm16) (g : Reg16) (s : State) : Result := .next (s.aluEwGw .cmp e g)

/-- `CMP Gb,Eb` (R257). -/
def execCmpGbEb (g : Reg8) (e : Rm8) (s : State) : Result := .next (s.aluGbEb .cmp g e)

/-- `CMP Gw,Ew` (R257). -/
def execCmpGwEw (g : Reg16) (e : Rm16) (s : State) : Result := .next (s.aluGwEw .cmp g e)

/-- `CMP AL,Ib` (R257). -/
def execCmpAlIb (i : Byte) (s : State) : Result := .next (s.aluAlIb .cmp i)

/-- `CMP AX,Iw` (R257). -/
def execCmpAxIw (i : Word) (s : State) : Result := .next (s.aluAxIw .cmp i)

/-- `INC r16` (R258). -/
def execIncR16 (r : Reg16) (s : State) : Result := .next (s.incDec16 false (.reg r))

/-- `DEC r16` (R259). -/
def execDecR16 (r : Reg16) (s : State) : Result := .next (s.incDec16 true (.reg r))

/-- `ADD Eb,Ib` (R253). -/
def execAddEbIb (e : Rm8) (i : Byte) (s : State) : Result := .next (s.aluEbIb .add e i)

/-- `ADD Ew,Iw` (R253). -/
def execAddEwIw (e : Rm16) (i : Word) (s : State) : Result := .next (s.aluEwIw .add e i)

/-- `ADD Eb,Ib (82 alias)` (R253). -/
def execAddEbIb82 (e : Rm8) (i : Byte) (s : State) : Result := .next (s.aluEbIb .add e i)

/-- `ADD Ew,Ib (sign-extended)` (R253). -/
def execAddEwIbSx (e : Rm16) (i : Byte) (s : State) : Result := .next (s.aluEwIw .add e (sext16 i))

/-- `OR Eb,Ib` (R301). -/
def execOrEbIb (e : Rm8) (i : Byte) (s : State) : Result := .next (s.aluEbIb .or e i)

/-- `OR Ew,Iw` (R301). -/
def execOrEwIw (e : Rm16) (i : Word) (s : State) : Result := .next (s.aluEwIw .or e i)

/-- `ADC Eb,Ib` (R254). -/
def execAdcEbIb (e : Rm8) (i : Byte) (s : State) : Result := .next (s.aluEbIb .adc e i)

/-- `ADC Ew,Iw` (R254). -/
def execAdcEwIw (e : Rm16) (i : Word) (s : State) : Result := .next (s.aluEwIw .adc e i)

/-- `ADC Eb,Ib (82 alias)` (R254). -/
def execAdcEbIb82 (e : Rm8) (i : Byte) (s : State) : Result := .next (s.aluEbIb .adc e i)

/-- `ADC Ew,Ib (sign-extended)` (R254). -/
def execAdcEwIbSx (e : Rm16) (i : Byte) (s : State) : Result := .next (s.aluEwIw .adc e (sext16 i))

/-- `SBB Eb,Ib` (R256). -/
def execSbbEbIb (e : Rm8) (i : Byte) (s : State) : Result := .next (s.aluEbIb .sbb e i)

/-- `SBB Ew,Iw` (R256). -/
def execSbbEwIw (e : Rm16) (i : Word) (s : State) : Result := .next (s.aluEwIw .sbb e i)

/-- `SBB Eb,Ib (82 alias)` (R256). -/
def execSbbEbIb82 (e : Rm8) (i : Byte) (s : State) : Result := .next (s.aluEbIb .sbb e i)

/-- `SBB Ew,Ib (sign-extended)` (R256). -/
def execSbbEwIbSx (e : Rm16) (i : Byte) (s : State) : Result := .next (s.aluEwIw .sbb e (sext16 i))

/-- `AND Eb,Ib` (R300). -/
def execAndEbIb (e : Rm8) (i : Byte) (s : State) : Result := .next (s.aluEbIb .and e i)

/-- `AND Ew,Iw` (R300). -/
def execAndEwIw (e : Rm16) (i : Word) (s : State) : Result := .next (s.aluEwIw .and e i)

/-- `SUB Eb,Ib` (R255). -/
def execSubEbIb (e : Rm8) (i : Byte) (s : State) : Result := .next (s.aluEbIb .sub e i)

/-- `SUB Ew,Iw` (R255). -/
def execSubEwIw (e : Rm16) (i : Word) (s : State) : Result := .next (s.aluEwIw .sub e i)

/-- `SUB Eb,Ib (82 alias)` (R255). -/
def execSubEbIb82 (e : Rm8) (i : Byte) (s : State) : Result := .next (s.aluEbIb .sub e i)

/-- `SUB Ew,Ib (sign-extended)` (R255). -/
def execSubEwIbSx (e : Rm16) (i : Byte) (s : State) : Result := .next (s.aluEwIw .sub e (sext16 i))

/-- `XOR Eb,Ib` (R302). -/
def execXorEbIb (e : Rm8) (i : Byte) (s : State) : Result := .next (s.aluEbIb .xor e i)

/-- `XOR Ew,Iw` (R302). -/
def execXorEwIw (e : Rm16) (i : Word) (s : State) : Result := .next (s.aluEwIw .xor e i)

/-- `CMP Eb,Ib` (R257). -/
def execCmpEbIb (e : Rm8) (i : Byte) (s : State) : Result := .next (s.aluEbIb .cmp e i)

/-- `CMP Ew,Iw` (R257). -/
def execCmpEwIw (e : Rm16) (i : Word) (s : State) : Result := .next (s.aluEwIw .cmp e i)

/-- `CMP Eb,Ib (82 alias)` (R257). -/
def execCmpEbIb82 (e : Rm8) (i : Byte) (s : State) : Result := .next (s.aluEbIb .cmp e i)

/-- `CMP Ew,Ib (sign-extended)` (R257). -/
def execCmpEwIbSx (e : Rm16) (i : Byte) (s : State) : Result := .next (s.aluEwIw .cmp e (sext16 i))

/-- `TEST Eb,Gb` (R303). -/
def execTestEbGb (e : Rm8) (g : Reg8) (s : State) : Result := .next (s.test8 (s.loc e) (s.reg8 g))

/-- `TEST Ew,Gw` (R303). -/
def execTestEwGw (e : Rm16) (g : Reg16) (s : State) : Result := .next (s.test16 (s.loc e) (s.reg16 g))

/-- `TEST AL,Ib` (R303). -/
def execTestAlIb (i : Byte) (s : State) : Result := .next (s.test8 (.reg .al) i)

/-- `TEST AX,Iw` (R303). -/
def execTestAxIw (i : Word) (s : State) : Result := .next (s.test16 (.reg .ax) i)

/-- `TEST Eb,Ib` (R303). -/
def execTestEbIb (e : Rm8) (i : Byte) (s : State) : Result := .next (s.test8 (s.loc e) i)

/-- `NOT Eb` (R304). -/
def execNotEb (e : Rm8) (s : State) : Result := .next (s.not8 (s.loc e))

/-- `NEG Eb` (R260). -/
def execNegEb (e : Rm8) (s : State) : Result := .next (s.neg8 (s.loc e))

/-- `TEST Ew,Iw` (R303). -/
def execTestEwIw (e : Rm16) (i : Word) (s : State) : Result := .next (s.test16 (s.loc e) i)

/-- `NOT Ew` (R304). -/
def execNotEw (e : Rm16) (s : State) : Result := .next (s.not16 (s.loc e))

/-- `NEG Ew` (R260). -/
def execNegEw (e : Rm16) (s : State) : Result := .next (s.neg16 (s.loc e))

/-- `INC Eb` (R258). -/
def execIncEb (e : Rm8) (s : State) : Result := .next (s.incDec8 false (s.loc e))

/-- `DEC Eb` (R259). -/
def execDecEb (e : Rm8) (s : State) : Result := .next (s.incDec8 true (s.loc e))

/-- `INC Ew` (R258). -/
def execIncEw (e : Rm16) (s : State) : Result := .next (s.incDec16 false (s.loc e))

/-- `DEC Ew` (R259). -/
def execDecEw (e : Rm16) (s : State) : Result := .next (s.incDec16 true (s.loc e))

end Sys2Proof.Machine
end

