-- ==== Sys2Proof/Machine/Control.lean ====
section
/-! DEFINITION. The control transfer instructions (45_control.md). While an instruction runs, IP is the offset after it. -/

namespace Sys2Proof.Machine

/-! ## Shared operations -/

/-- The conditions of the conditional jumps, in the order of their codes (R385). -/
inductive Cond where
  | o | no | b | ae | e | ne | be | a | s | ns | p | np | l | ge | le | g
deriving DecidableEq, Repr

/-- Whether a condition holds (R385). -/
def State.cond (s : State) : Cond → Bool
  | .o => s.flag .ofl
  | .no => !s.flag .ofl
  | .b => s.flag .cf
  | .ae => !s.flag .cf
  | .e => s.flag .zf
  | .ne => !s.flag .zf
  | .be => s.flag .cf || s.flag .zf
  | .a => !s.flag .cf && !s.flag .zf
  | .s => s.flag .sf
  | .ns => !s.flag .sf
  | .p => s.flag .pf
  | .np => !s.flag .pf
  | .l => s.flag .sf != s.flag .ofl
  | .ge => s.flag .sf == s.flag .ofl
  | .le => s.flag .zf || (s.flag .sf != s.flag .ofl)
  | .g => !s.flag .zf && (s.flag .sf == s.flag .ofl)

/-- `pc <- trunc_16(IP + disp)` if `b`, else nothing, with no flush (R386 to R405; 30_encoding.md R115). -/
def State.jumpIf (s : State) (b : Bool) (d : Byte) : State := if b then s.jump (s.ip + sext16 d) else s

/-- `CX <- CX - 1` (R402 to R404). -/
def State.decCx (s : State) : State := s.setReg16 .cx (s.reg16 .cx - 1)

/-- `Push16(IP); pc <- t` (R376, R377). -/
def State.callNear (s : State) (t : Word) : State := (s.push16 s.ip).jump t

/-- `Push16(CS); Push16(IP); CS:IP <- (sg, off)` (R378, R379). -/
def State.callFar (s : State) (sg off : Word) : State := ((s.push16 (s.seg .cs)).push16 s.ip).farJump sg off

/-- A near return that releases `k` bytes (R380, R381). -/
def State.returnNear (s : State) (k : Word) : State :=
  let t := s.pop16
  (t.2.setReg16 .sp (t.2.reg16 .sp + k)).jump t.1

/-- A far return that releases `k` bytes (R382, R383). -/
def State.returnFar (s : State) (k : Word) : State :=
  let o := s.pop16
  let sg := o.2.pop16
  (sg.2.setReg16 .sp (sg.2.reg16 .sp + k)).farJump sg.1 o.1

/-! ## Jumps -/

/-- `JMP Jb` (R371). -/
def execJmpJb (d : Byte) (s : State) : Result := .next (s.jumpIf true d)

/-- `JMP Jw` (R372). -/
def execJmpJw (d : Word) (s : State) : Result := .next (s.jump (s.ip + d))

/-- `JMP Ew` (R373). -/
def execJmpEw (e : Rm16) (s : State) : Result := .next ((s.readRm16 e).2.jump (s.readRm16 e).1)

/-- `JMP Ap` (R374). -/
def execJmpAp (o sg : Word) (s : State) : Result := .next (s.farJump sg o)

/-- `JMP Mp` (R375). -/
def execJmpMp (m : MemOp) (s : State) : Result := .next ((s.readFar m).2.farJump (s.readFar m).1.2 (s.readFar m).1.1)

/-! ## Calls -/

/-- `CALL Jw` (R376). -/
def execCallJw (d : Word) (s : State) : Result := .next (s.callNear (s.ip + d))

/-- `CALL Ew` (R377): the operand is read before SP changes. -/
def execCallEw (e : Rm16) (s : State) : Result := .next ((s.readRm16 e).2.callNear (s.readRm16 e).1)

/-- `CALL Ap` (R378). -/
def execCallAp (o sg : Word) (s : State) : Result := .next (s.callFar sg o)

/-- `CALL Mp` (R379): the pointer is read before anything is pushed. -/
def execCallMp (m : MemOp) (s : State) : Result := .next ((s.readFar m).2.callFar (s.readFar m).1.2 (s.readFar m).1.1)

/-! ## Returns -/

/-- `RET` (R380). -/
def execRet (s : State) : Result := .next (s.pop16.2.jump s.pop16.1)

/-- `RET Iw` (R381). -/
def execRetIw (i : Word) (s : State) : Result := .next (s.returnNear i)

/-- `RETF` (R382). -/
def execRetf (s : State) : Result := .next (s.pop16.2.pop16.2.farJump s.pop16.2.pop16.1 s.pop16.1)

/-- `RETF Iw` (R383). -/
def execRetfIw (i : Word) (s : State) : Result := .next (s.returnFar i)

/-! ## Conditional jumps -/

/-- `JO Jb` (R386). -/
def execJoJb (d : Byte) (s : State) : Result := .next (s.jumpIf (s.cond .o) d)

/-- `JNO Jb` (R387). -/
def execJnoJb (d : Byte) (s : State) : Result := .next (s.jumpIf (s.cond .no) d)

/-- `JB Jb` (R388). -/
def execJbJb (d : Byte) (s : State) : Result := .next (s.jumpIf (s.cond .b) d)

/-- `JAE Jb` (R389). -/
def execJaeJb (d : Byte) (s : State) : Result := .next (s.jumpIf (s.cond .ae) d)

/-- `JE Jb` (R390). -/
def execJeJb (d : Byte) (s : State) : Result := .next (s.jumpIf (s.cond .e) d)

/-- `JNE Jb` (R391). -/
def execJneJb (d : Byte) (s : State) : Result := .next (s.jumpIf (s.cond .ne) d)

/-- `JBE Jb` (R392). -/
def execJbeJb (d : Byte) (s : State) : Result := .next (s.jumpIf (s.cond .be) d)

/-- `JA Jb` (R393). -/
def execJaJb (d : Byte) (s : State) : Result := .next (s.jumpIf (s.cond .a) d)

/-- `JS Jb` (R394). -/
def execJsJb (d : Byte) (s : State) : Result := .next (s.jumpIf (s.cond .s) d)

/-- `JNS Jb` (R395). -/
def execJnsJb (d : Byte) (s : State) : Result := .next (s.jumpIf (s.cond .ns) d)

/-- `JP Jb` (R396). -/
def execJpJb (d : Byte) (s : State) : Result := .next (s.jumpIf (s.cond .p) d)

/-- `JNP Jb` (R397). -/
def execJnpJb (d : Byte) (s : State) : Result := .next (s.jumpIf (s.cond .np) d)

/-- `JL Jb` (R398). -/
def execJlJb (d : Byte) (s : State) : Result := .next (s.jumpIf (s.cond .l) d)

/-- `JGE Jb` (R399). -/
def execJgeJb (d : Byte) (s : State) : Result := .next (s.jumpIf (s.cond .ge) d)

/-- `JLE Jb` (R400). -/
def execJleJb (d : Byte) (s : State) : Result := .next (s.jumpIf (s.cond .le) d)

/-- `JG Jb` (R401). -/
def execJgJb (d : Byte) (s : State) : Result := .next (s.jumpIf (s.cond .g) d)

/-! ## Loops -/

/-- `LOOP Jb` (R402). -/
def execLoopJb (d : Byte) (s : State) : Result :=
  .next (s.decCx.jumpIf (decide (s.decCx.reg16 .cx ≠ 0)) d)

/-- `LOOPE Jb` (R403). -/
def execLoopeJb (d : Byte) (s : State) : Result :=
  .next (s.decCx.jumpIf (decide (s.decCx.reg16 .cx ≠ 0) && s.flag .zf) d)

/-- `LOOPNE Jb` (R404). -/
def execLoopneJb (d : Byte) (s : State) : Result :=
  .next (s.decCx.jumpIf (decide (s.decCx.reg16 .cx ≠ 0) && !s.flag .zf) d)

/-- `JCXZ Jb` (R405). -/
def execJcxzJb (d : Byte) (s : State) : Result := .next (s.jumpIf (decide (s.reg16 .cx = 0)) d)

/-! ## Software interrupts and return -/

/-- `INT Ib` (R406). -/
def execIntIb (i : Byte) (s : State) : Result := .next (s.raise i)

/-- `INT 3` (R407). -/
def execInt3 (s : State) : Result := .next (s.raise 3)

/-- `INTO` (R408). -/
def execInto (s : State) : Result := .next (if s.flag .ofl then s.raise 4 else s)

/-- `IRET` (R409). -/
def execIret (s : State) : Result := .next s.interruptReturn

end Sys2Proof.Machine
end

