-- ==== Sys2Proof/Machine/DataTransfer.lean ====
section
/-! DEFINITION. The data transfer instructions (41_data_transfer.md). -/

namespace Sys2Proof.Machine

/-! ## Shared operations -/

/-- MOV E,v for a byte (R201, R203). -/
def State.store8 (s : State) (e : Rm8) (v : Byte) : State := s.writeLoc8 (s.loc e) v

/-- MOV E,v for a word (R201, R203, R207). -/
def State.store16 (s : State) (e : Rm16) (v : Word) : State := s.writeLoc16 (s.loc e) v

/-- A load of a segment register from a word operand, which sets `inhibit` (R208; 60_exceptions.md R531). -/
def State.loadSeg (s : State) (sg : Seg) (e : Rm16) : State :=
  { (s.readRm16 e).2.setSeg sg (s.readRm16 e).1 with inhibit := true }

/-- PUSH of a general register: PUSH SP stores the decremented SP (R212, R214; D51). -/
def State.pushReg (s : State) (r : Reg16) : State :=
  s.push16 (if r = .sp then s.reg16 .sp - 2 else s.reg16 r)

/-- A pop into a segment register, which sets `inhibit` (R216). -/
def State.popSeg (s : State) (sg : Seg) : State :=
  { s.pop16.2.setSeg sg s.pop16.1 with inhibit := true }

/-- LDS and LES: both words are read before either register is written (R223, R224). -/
def State.loadFar (s : State) (g : Reg16) (m : MemOp) (sg : Seg) : State :=
  let p := s.readFar m
  (p.2.setReg16 g p.1.1).setSeg sg p.1.2

/-! ## MOV -/

/-- `MOV Eb,Gb` (R201). -/
def execMovEbGb (e : Rm8) (g : Reg8) (s : State) : Result := .next (s.store8 e (s.reg8 g))

/-- `MOV Ew,Gw` (R201). -/
def execMovEwGw (e : Rm16) (g : Reg16) (s : State) : Result := .next (s.store16 e (s.reg16 g))

/-- `MOV Gb,Eb` (R202). -/
def execMovGbEb (g : Reg8) (e : Rm8) (s : State) : Result := .next ((s.readRm8 e).2.setReg8 g (s.readRm8 e).1)

/-- `MOV Gw,Ew` (R202). -/
def execMovGwEw (g : Reg16) (e : Rm16) (s : State) : Result := .next ((s.readRm16 e).2.setReg16 g (s.readRm16 e).1)

/-- `MOV Eb,Ib` (R203). -/
def execMovEbIb (e : Rm8) (i : Byte) (s : State) : Result := .next (s.store8 e i)

/-- `MOV Ew,Iw` (R203). -/
def execMovEwIw (e : Rm16) (i : Word) (s : State) : Result := .next (s.store16 e i)

/-- `MOV r8,Ib` (R204). -/
def execMovR8Ib (r : Reg8) (i : Byte) (s : State) : Result := .next (s.setReg8 r i)

/-- `MOV r16,Iw` (R204). -/
def execMovR16Iw (r : Reg16) (i : Word) (s : State) : Result := .next (s.setReg16 r i)

/-- `MOV AL,Ob` (R205). -/
def execMovAlOb (o : Word) (s : State) : Result :=
  .next ((s.read8 (s.seg (s.ovr .ds)) o).2.setReg8 .al (s.read8 (s.seg (s.ovr .ds)) o).1)

/-- `MOV AX,Ow` (R205). -/
def execMovAxOw (o : Word) (s : State) : Result :=
  .next ((s.read16 (s.seg (s.ovr .ds)) o).2.setReg16 .ax (s.read16 (s.seg (s.ovr .ds)) o).1)

/-- `MOV Ob,AL` (R206). -/
def execMovObAl (o : Word) (s : State) : Result := .next (s.write8 (s.seg (s.ovr .ds)) o (s.reg8 .al))

/-- `MOV Ow,AX` (R206). -/
def execMovOwAx (o : Word) (s : State) : Result := .next (s.write16 (s.seg (s.ovr .ds)) o (s.reg16 .ax))

/-- `MOV Ew,Sw` (R207). -/
def execMovEwSw (e : Rm16) (sg : Seg) (s : State) : Result := .next (s.store16 e (s.seg sg))

/-- `MOV ES,Ew` (R208). -/
def execMovEsEw (e : Rm16) (s : State) : Result := .next (s.loadSeg .es e)

/-- `MOV SS,Ew` (R208). -/
def execMovSsEw (e : Rm16) (s : State) : Result := .next (s.loadSeg .ss e)

/-- `MOV DS,Ew` (R208). -/
def execMovDsEw (e : Rm16) (s : State) : Result := .next (s.loadSeg .ds e)

/-! ## PUSH and POP -/

/-- `PUSH r16` (R212). -/
def execPushR16 (r : Reg16) (s : State) : Result := .next (s.pushReg r)

/-- `PUSH ES` (R213). -/
def execPushEs (s : State) : Result := .next (s.push16 (s.seg .es))

/-- `PUSH CS` (R213). -/
def execPushCs (s : State) : Result := .next (s.push16 (s.seg .cs))

/-- `PUSH SS` (R213). -/
def execPushSs (s : State) : Result := .next (s.push16 (s.seg .ss))

/-- `PUSH DS` (R213). -/
def execPushDs (s : State) : Result := .next (s.push16 (s.seg .ds))

/-- `PUSH Ew` (R214): the operand is read before SP changes; a register is pushed as by PUSH r16. -/
def execPushEw (e : Rm16) (s : State) : Result :=
  match e with
  | .reg r => .next (s.pushReg r)
  | .mem m => .next ((s.readRm16 (.mem m)).2.push16 (s.readRm16 (.mem m)).1)

/-- `POP r16` (R215): POP SP leaves the word popped. -/
def execPopR16 (r : Reg16) (s : State) : Result := .next (s.pop16.2.setReg16 r s.pop16.1)

/-- `POP ES` (R216). -/
def execPopEs (s : State) : Result := .next (s.popSeg .es)

/-- `POP SS` (R216). -/
def execPopSs (s : State) : Result := .next (s.popSeg .ss)

/-- `POP DS` (R216). -/
def execPopDs (s : State) : Result := .next (s.popSeg .ds)

/-- `POP Ew` (R217): the operand's place is computed before SP changes, and the stack is read before it is written. -/
def execPopEw (e : Rm16) (s : State) : Result := .next (s.pop16.2.writeLoc16 (s.loc e) s.pop16.1)

/-! ## Exchange and table lookup -/

/-- `XCHG Eb,Gb` (R218): `t <- E; E <- G; G <- t`. -/
def execXchgEbGb (e : Rm8) (g : Reg8) (s : State) : Result :=
  .next (((s.readRm8 e).2.writeLoc8 (s.loc e) (s.reg8 g)).setReg8 g (s.readRm8 e).1)

/-- `XCHG Ew,Gw` (R218). -/
def execXchgEwGw (e : Rm16) (g : Reg16) (s : State) : Result :=
  .next (((s.readRm16 e).2.writeLoc16 (s.loc e) (s.reg16 g)).setReg16 g (s.readRm16 e).1)

/-- `XCHG AX,r16` (R219). -/
def execXchgAxR16 (r : Reg16) (s : State) : Result := .next ((s.setReg16 .ax (s.reg16 r)).setReg16 r (s.reg16 .ax))

/-- `NOP` (R220). -/
def execNop (s : State) : Result := .next s

/-- `XLAT` (R221). -/
def execXlat (s : State) : Result :=
  let r := s.read8 (s.seg (s.ovr .ds)) (s.reg16 .bx + zext16 (s.reg8 .al))
  .next (r.2.setReg8 .al r.1)

/-! ## Address loads -/

/-- `LEA Gw,M` (R222): no memory access. -/
def execLeaGwM (g : Reg16) (m : MemOp) (s : State) : Result := .next (s.setReg16 g (s.ea m))

/-- `LDS Gw,Mp` (R223). -/
def execLdsGwMp (g : Reg16) (m : MemOp) (s : State) : Result := .next (s.loadFar g m .ds)

/-- `LES Gw,Mp` (R224). -/
def execLesGwMp (g : Reg16) (m : MemOp) (s : State) : Result := .next (s.loadFar g m .es)

/-! ## Flag transfers -/

/-- `LAHF` (R225). -/
def execLahf (s : State) : Result := .next (s.setReg8 .ah (lo8 s.flags))

/-- `SAHF` (R226): `FLAGS <- (FLAGS & 0xFF00) | (AH & 0xD5) | 0x0002`. -/
def execSahf (s : State) : Result :=
  .next { s with flags := (s.flags &&& 0xFF00) ||| zext16 (s.reg8 .ah &&& 0xD5) ||| 0x0002 }

/-- `PUSHF` (R227). -/
def execPushf (s : State) : Result := .next (s.push16 s.flags)

/-- `POPF` (R228). -/
def execPopf (s : State) : Result := .next (s.pop16.2.writeFlags s.pop16.1)

end Sys2Proof.Machine
end

