-- ==== Sys2Proof/Machine/MulDiv.lean ====
section
/-! DEFINITION. Multiplication, division, decimal adjustment and sign extension (42_arithmetic.md R261 to R272). -/

namespace Sys2Proof.Machine

/-- The six result flags (R263). -/
def resultFlags : List Flag := [.cf, .ofl, .sf, .zf, .af, .pf]

/-- `R16[r] <- draw_16()`. -/
def State.drawReg (s : State) (r : Reg16) : State := s.draw.2.setReg16 r s.draw.1

/-! ## MUL and IMUL -/

/-- CF and OF of a multiplication, and draws for SF, ZF, AF and PF (R261, R262). -/
def State.mulFlags (s : State) (b : Bool) : State :=
  ((s.setFlag .cf b).setFlag .ofl b).drawFlags [.sf, .zf, .af, .pf]

/-- `DX:AX <- t` (R261, R262). -/
def State.setDxAx (s : State) (t : DWord) : State :=
  (s.setReg16 .dx (t.extractLsb' 16 16)).setReg16 .ax (t.extractLsb' 0 16)

/-- MUL by a byte (R261): CF = OF = (AH ≠ 0). -/
def State.mul8 (s : State) (src : Byte) : State :=
  let t := (s.reg8 .al).toNat * src.toNat
  (s.setReg16 .ax (BitVec.ofNat 16 t)).mulFlags (decide (t / 256 ≠ 0))

/-- MUL by a word (R261): CF = OF = (DX ≠ 0). -/
def State.mul16 (s : State) (src : Word) : State :=
  let t := (s.reg16 .ax).toNat * src.toNat
  (s.setDxAx (BitVec.ofNat 32 t)).mulFlags (decide (t / 65536 ≠ 0))

/-- IMUL by a byte (R262). -/
def State.imul8 (s : State) (src : Byte) : State :=
  let t := (s.reg8 .al).toInt * src.toInt
  (s.setReg16 .ax (BitVec.ofInt 16 t)).mulFlags (!(decide (-128 ≤ t) && decide (t ≤ 127)))

/-- IMUL by a word (R262). -/
def State.imul16 (s : State) (src : Word) : State :=
  let t := (s.reg16 .ax).toInt * src.toInt
  (s.setDxAx (BitVec.ofInt 32 t)).mulFlags (!(decide (-32768 ≤ t) && decide (t ≤ 32767)))

/-- `MUL Eb` (R261). -/
def execMulEb (e : Rm8) (s : State) : Result := .next ((s.readRm8 e).2.mul8 (s.readRm8 e).1)

/-- `MUL Ew` (R261). -/
def execMulEw (e : Rm16) (s : State) : Result := .next ((s.readRm16 e).2.mul16 (s.readRm16 e).1)

/-- `IMUL Eb` (R262). -/
def execImulEb (e : Rm8) (s : State) : Result := .next ((s.readRm8 e).2.imul8 (s.readRm8 e).1)

/-- `IMUL Ew` (R262). -/
def execImulEw (e : Rm16) (s : State) : Result := .next ((s.readRm16 e).2.imul16 (s.readRm16 e).1)

/-! ## DIV and IDIV -/

/-- `DivideError()` for w = 8 (R263): AX and the six result flags are draws, then interrupt 0. -/
def State.divideError8 (s : State) : State := ((s.drawReg .ax).drawFlags resultFlags).raise 0

/-- `DivideError()` for w = 16 (R263): AX and DX are draws. -/
def State.divideError16 (s : State) : State := (((s.drawReg .ax).drawReg .dx).drawFlags resultFlags).raise 0

/-- `DX ++ AX`. -/
def State.dxAx (s : State) : DWord := s.reg16 .dx ++ s.reg16 .ax

/-- Quotient to AL and remainder to AH, the flags draws (R263, R264). -/
def State.putQuotient8 (s : State) (q r : Byte) : State :=
  ((s.setReg8 .al q).setReg8 .ah r).drawFlags resultFlags

/-- Quotient to AX and remainder to DX, the flags draws (R263, R264). -/
def State.putQuotient16 (s : State) (q r : Word) : State :=
  ((s.setReg16 .ax q).setReg16 .dx r).drawFlags resultFlags

/-- DIV by a byte (R263). -/
def State.div8 (s : State) (d : Byte) : State :=
  let n := (s.reg16 .ax).toNat
  if d = 0 ∨ 255 < n / d.toNat then s.divideError8
  else s.putQuotient8 (BitVec.ofNat 8 (n / d.toNat)) (BitVec.ofNat 8 (n % d.toNat))

/-- DIV by a word (R263). -/
def State.div16 (s : State) (d : Word) : State :=
  let n := s.dxAx.toNat
  if d = 0 ∨ 65535 < n / d.toNat then s.divideError16
  else s.putQuotient16 (BitVec.ofNat 16 (n / d.toNat)) (BitVec.ofNat 16 (n % d.toNat))

/-- The least quotient IDIV gives: `-(2^(w-1)) + (1 if IDIV_MOST_NEGATIVE_TRAPS else 0)` (R264). -/
def idivLeast (w : Nat) : Int := -(2 ^ (w - 1)) + (if Config.idivMostNegativeTraps then 1 else 0)

/-- IDIV by a byte (R264): truncation toward zero, the remainder has the dividend's sign. -/
def State.idiv8 (s : State) (src : Byte) : State :=
  let n := (s.reg16 .ax).toInt
  let d := src.toInt
  if src = 0 ∨ n.tdiv d < idivLeast 8 ∨ 127 < n.tdiv d then s.divideError8
  else s.putQuotient8 (BitVec.ofInt 8 (n.tdiv d)) (BitVec.ofInt 8 (n.tmod d))

/-- IDIV by a word (R264). -/
def State.idiv16 (s : State) (src : Word) : State :=
  let n := s.dxAx.toInt
  let d := src.toInt
  if src = 0 ∨ n.tdiv d < idivLeast 16 ∨ 32767 < n.tdiv d then s.divideError16
  else s.putQuotient16 (BitVec.ofInt 16 (n.tdiv d)) (BitVec.ofInt 16 (n.tmod d))

/-- `DIV Eb` (R263). -/
def execDivEb (e : Rm8) (s : State) : Result := .next ((s.readRm8 e).2.div8 (s.readRm8 e).1)

/-- `DIV Ew` (R263). -/
def execDivEw (e : Rm16) (s : State) : Result := .next ((s.readRm16 e).2.div16 (s.readRm16 e).1)

/-- `IDIV Eb` (R264). -/
def execIdivEb (e : Rm8) (s : State) : Result := .next ((s.readRm8 e).2.idiv8 (s.readRm8 e).1)

/-- `IDIV Ew` (R264). -/
def execIdivEw (e : Rm16) (s : State) : Result := .next ((s.readRm16 e).2.idiv16 (s.readRm16 e).1)

/-! ## Decimal adjustment -/

/-- Whether a low decimal digit needs adjusting: `AL[3:0] > 9 or FLAGS.AF = 1` (R265 to R268). -/
def State.lowAdjust (s : State) : Bool := decide (9 < (s.reg8 .al).toNat % 16) || s.flag .af

/-- Whether a high decimal digit needs adjusting: `a > 0x99 or c = 1` (R265, R266). -/
def State.highAdjust (s : State) : Bool := decide (0x99 < (s.reg8 .al).toNat) || s.flag .cf

/-- `DAA` (R265). -/
def execDaa (s : State) : Result :=
  let a := s.reg8 .al
  let a1 := if s.lowAdjust then a + 6 else a
  let a2 := if s.highAdjust then a1 + 0x60 else a1
  .next (((((s.setFlag .af s.lowAdjust).setFlag .cf s.highAdjust).setReg8 .al a2).setSzp a2).drawFlag .ofl)

/-- `DAS` (R266): without a high adjustment, CF is the old CF or the borrow out of the subtraction of 6. -/
def execDas (s : State) : Result :=
  let a := s.reg8 .al
  let a1 := if s.lowAdjust then a - 6 else a
  let a2 := if s.highAdjust then a1 - 0x60 else a1
  let c := s.highAdjust || (s.lowAdjust && (s.flag .cf || decide (a.toNat < 6)))
  .next (((((s.setFlag .af s.lowAdjust).setFlag .cf c).setReg8 .al a2).setSzp a2).drawFlag .ofl)

/-- AF, CF and the draws of AAA and AAS, and AL's low digit kept (R267, R268). -/
def State.asciiAdjust (s : State) (al ah : Byte) : State :=
  let s1 := if s.lowAdjust then (s.setReg8 .al al).setReg8 .ah ah else s
  let s2 := (s1.setFlag .af s.lowAdjust).setFlag .cf s.lowAdjust
  (s2.setReg8 .al (s2.reg8 .al &&& 0x0F)).drawFlags [.ofl, .sf, .zf, .pf]

/-- `AAA` (R267): no carry from AL into AH. -/
def execAaa (s : State) : Result := .next (s.asciiAdjust (s.reg8 .al + 6) (s.reg8 .ah + 1))

/-- `AAS` (R268). -/
def execAas (s : State) : Result := .next (s.asciiAdjust (s.reg8 .al - 6) (s.reg8 .ah - 1))

/-- `AAM` (R269): the immediate is the base; base 0 is a divide error. -/
def execAamIb (i : Byte) (s : State) : Result :=
  .next (if i = 0 then s.divideError8
    else
      let q := BitVec.ofNat 8 ((s.reg8 .al).toNat / i.toNat)
      let r := BitVec.ofNat 8 ((s.reg8 .al).toNat % i.toNat)
      (((s.setReg8 .ah q).setReg8 .al r).setSzp r).drawFlags [.ofl, .af, .cf])

/-- `AAD` (R270): the immediate is the base. -/
def execAadIb (i : Byte) (s : State) : Result :=
  let r := s.reg8 .al + s.reg8 .ah * i
  .next ((((s.setReg8 .al r).setReg8 .ah 0).setSzp r).drawFlags [.ofl, .af, .cf])

/-! ## Sign extension -/

/-- `CBW` (R271). -/
def execCbw (s : State) : Result := .next (s.setReg16 .ax (sext16 (s.reg8 .al)))

/-- `CWD` (R272). -/
def execCwd (s : State) : Result := .next (s.setReg16 .dx (if (s.reg16 .ax).msb then 0xFFFF else 0))

end Sys2Proof.Machine
end

