-- ==== Sys2Proof/Machine/Fdc.lean ====
section
/-! DEFINITION. The floppy disk controller (60_exceptions.md R550 to R565). -/

namespace Sys2Proof.Machine

/-- The ports the controller owns: DOR, MSR, data register (R551). Port 3F6 is none of them, so that the second byte of a word
access at 3F5 reaches no controller, where 70_reset_and_hazards.md R616 says that it does: DESIGN CHOICE, the model follows
R551 and 47_io.md R454 (log 28). -/
def fdcPorts : List Word := [0x3F2, 0x3F4, 0x3F5]

/-- The command table: the low 5 bits of the opcode to a command and its parameter count (R558; 90_conflicts.md C2). -/
def fdcCommand (code : Nat) : Option (FdcCommand × Nat) :=
  match code with
  | 0x02 => some (.readTrack, 8)
  | 0x03 => some (.specify, 2)
  | 0x04 => some (.senseDriveStatus, 1)
  | 0x05 => some (.writeData, 8)
  | 0x06 => some (.readData, 8)
  | 0x07 => some (.recalibrate, 1)
  | 0x08 => some (.senseInterruptStatus, 0)
  | 0x09 => some (.writeDeletedData, 8)
  | 0x0A => some (.readId, 1)
  | 0x0C => some (.readDeletedData, 8)
  | 0x0D => some (.formatTrack, 5)
  | 0x0F => some (.seek, 1)
  | 0x11 => some (.scanEqual, 8)
  | 0x19 => some (.scanLowOrEqual, 8)
  | 0x1D => some (.scanHighOrEqual, 8)
  | _ => none

/-- The sector-size lookup; `none` is `Rejected` (R560). -/
def sectorSize (n : Byte) : Option Nat :=
  match n.toNat with
  | 0 => some 128
  | 1 => some 256
  | 2 => some 512
  | 3 => some 1024
  | _ => none

/-- The MSR's value by phase (R555). -/
def msr : Phase → Byte
  | .none => 0x80
  | .command => 0x90
  | .execution => 0xB0
  | .result => 0xD0

/-- The protocol back in phase None (R553, R557). -/
def Fdc.toNone (f : Fdc) : Fdc := { f with phase := .none, active := none, result := [] }

/-- `Select(v)` (R557): a command of the table becomes active, and goes to Command, or straight to Execution when it takes
no parameter; any other opcode is logged (R561). -/
def Fdc.select (f : Fdc) (v : Byte) : Fdc :=
  match fdcCommand (v.toNat % 32) with
  | some (cmd, count) =>
    { f with active := some ⟨v, cmd, count, []⟩, phase := if 0 < count then .command else .execution }
  | none => { f with log := f.log ++ [v] }

/-- `Execute()` (R557): FDC_HANDLER runs on the active command. Without an active command, which no access leads to, nothing
changes (log 24). -/
def Fdc.execute (f : Fdc) : Fdc :=
  match f.active with
  | some a =>
    let r := Config.fdcHandler f.hstate a.opcode a.params
    { f with hstate := r.1, result := r.2, phase := .result }
  | none => f

/-- A parameter byte in phase Command (R557). -/
def Fdc.parameter (f : Fdc) (v : Byte) : Fdc :=
  match f.active with
  | some a =>
    { f with
      active := some { a with params := a.params ++ [v], remaining := a.remaining - 1 }
      phase := if a.remaining - 1 = 0 then .execution else .command }
  | none => f

/-- `write_data(v)` (R557). -/
def Fdc.writeData (f : Fdc) (v : Byte) : Fdc :=
  match f.phase with
  | .none => f.select v
  | .command => f.parameter v
  | .execution => f.execute
  | .result => f.toNone.select v

/-- `read_data()` (R556); `none` is a draw. -/
def Fdc.readData (f : Fdc) : Option Byte × Fdc :=
  match f.phase with
  | .none | .command => (none, f)
  | .execution => (none, f.execute)
  | .result =>
    match f.result with
    | b :: rest => (some b, { f with result := rest })
    | [] => (none, f)

/-- A write of the DOR (R553). -/
def Fdc.writeDor (f : Fdc) (v : Byte) : Fdc :=
  if v.getLsbD 2 = Config.dorResetLevel then { f with dor := v }.toNone else { f with dor := v }

/-- `read_byte(port)` of the controller (R551); `none` is a draw. -/
def Fdc.readByte (f : Fdc) (p : Word) : Option Byte × Fdc :=
  if p = 0x3F4 then (some (msr f.phase), f)
  else if p = 0x3F5 then f.readData
  else (none, f)

/-- `write_byte(port, value)` of the controller (R551). -/
def Fdc.writeByte (f : Fdc) (p : Word) (v : Byte) : Fdc :=
  if p = 0x3F2 then f.writeDor v
  else if p = 0x3F5 then f.writeData v
  else f

/-- `advance(cycles)` of the controller has no effect (R563). -/
def Fdc.advance (f : Fdc) (_ : Nat) : Fdc := f

/-- The controller after reset: log and handler state are kept (70_reset_and_hazards.md R601). -/
def Fdc.reset (f : Fdc) : Fdc := { f.toNone with dor := 0 }

end Sys2Proof.Machine
end

