-- ==== Sys2Proof/Machine/Io.lean ====
section
/-! DEFINITION. The port dispatcher and the PortDevice contract (47_io.md R450 to R456). -/

namespace Sys2Proof.Machine

/-- `owned_ports()` (47_io.md R455, 60_exceptions.md R551). -/
def Device.ports : Device → List Word
  | .fdc _ => fdcPorts
  | .other _ ports _ => ports

/-- Whether a device owns a port (47_io.md R451). -/
def Device.owns (d : Device) (p : Word) : Bool := d.ports.contains p

/-- `read_byte(port)`; `none` is a draw (47_io.md R455). -/
def Device.readByte (d : Device) (p : Word) : Option Byte × Device :=
  match d with
  | .fdc f => ((f.readByte p).1, .fdc (f.readByte p).2)
  | .other id ports st => (some (Config.otherRead id st p).2, .other id ports (Config.otherRead id st p).1)

/-- `write_byte(port, value)` (47_io.md R455). -/
def Device.writeByte (d : Device) (p : Word) (v : Byte) : Device :=
  match d with
  | .fdc f => .fdc (f.writeByte p v)
  | .other id ports st => .other id ports (Config.otherWrite id st p v)

/-- `advance(cycles)` (47_io.md R455, 60_exceptions.md R563). -/
def Device.advance (cycles : Nat) : Device → Device
  | .fdc f => .fdc (f.advance cycles)
  | .other id ports st => .other id ports (Config.otherAdvance id st cycles)

/-- A device reset (70_reset_and_hazards.md R601). -/
def Device.reset : Device → Device
  | .fdc f => .fdc f.reset
  | .other id ports st => .other id ports (Config.otherReset id st)

/-- Whether the devices own pairwise disjoint port sets (47_io.md R451). -/
def devicesDisjoint : List Device → Bool
  | [] => true
  | d :: ds => ds.all (fun e => e.ports.all (fun p => !d.owns p)) && devicesDisjoint ds

/-- `owner(p)`: the device that owns a port, or none (47_io.md R451). -/
def owner (ds : List Device) (p : Word) : Option Device := ds.find? (fun d => d.owns p)

/-- Applies a function to the owner of a port, if there is one. -/
def onOwner (p : Word) (f : Device → Device) : List Device → List Device
  | [] => []
  | d :: ds => if d.owns p then f d :: ds else d :: onOwner p f ds

/-- `IoReadByte(p)` (47_io.md R452): the owner's byte, or a draw where no device drives the bus. -/
def State.ioReadByte (s : State) (p : Word) : Byte × State :=
  let s1 := { s with devices := onOwner p (fun d => (d.readByte p).2) s.devices }
  match (owner s.devices p).bind (fun d => (d.readByte p).1) with
  | some b => (b, s1)
  | none => (lo8 s1.draw.1, s1.draw.2)

/-- `IoRead(port, 2)`: port, then port + 1 (47_io.md R452, R454); at 3F5 the second byte is that of port
3F6, which the floppy controller does not own: DESIGN CHOICE, log 28. -/
def State.ioRead16 (s : State) (p : Word) : Word × State :=
  let lo := s.ioReadByte p
  let hi := lo.2.ioReadByte (p + 1)
  (join16 hi.1 lo.1, hi.2)

/-- `IoWriteByte(p, b)` (47_io.md R453): a write to a port no device owns is discarded. -/
def State.ioWriteByte (s : State) (p : Word) (b : Byte) : State :=
  { s with devices := onOwner p (fun d => d.writeByte p b) s.devices }

/-- `IoWrite(port, 2, v)`: port, then port + 1 (47_io.md R453, R454); at 3F5 the high byte goes to port 3F6, which
the floppy controller does not own: DESIGN CHOICE, log 28. -/
def State.ioWrite16 (s : State) (p : Word) (v : Word) : State :=
  (s.ioWriteByte p (lo8 v)).ioWriteByte (p + 1) (hi8 v)

/-- Construction with a list of devices, refused when two own the same port (47_io.md R451, 70_reset_and_hazards.md R600,
R610). Not a step (R600). -/
def constructChecked (ds : List Device) : Option State :=
  if devicesDisjoint ds then some (State.construct ds) else none

end Sys2Proof.Machine
end

