-- ==== Sys2Proof/Machine/PortIo.lean ====
section
/-! DEFINITION. IN and OUT (47_io.md R457 to R460). -/

namespace Sys2Proof.Machine

/-- IN of a byte from a port (R457, R458). -/
def State.inByte (s : State) (p : Word) : State := (s.ioReadByte p).2.setReg8 .al (s.ioReadByte p).1

/-- IN of a word from a port (R457, R458). -/
def State.inWord (s : State) (p : Word) : State := (s.ioRead16 p).2.setReg16 .ax (s.ioRead16 p).1

/-- `IN AL,Ib` (R457). -/
def execInAlIb (i : Byte) (s : State) : Result := .next (s.inByte (zext16 i))

/-- `IN AX,Ib` (R457). -/
def execInAxIb (i : Byte) (s : State) : Result := .next (s.inWord (zext16 i))

/-- `IN AL,DX` (R458). -/
def execInAlDx (s : State) : Result := .next (s.inByte (s.reg16 .dx))

/-- `IN AX,DX` (R458). -/
def execInAxDx (s : State) : Result := .next (s.inWord (s.reg16 .dx))

/-- `OUT Ib,AL` (R459). -/
def execOutIbAl (i : Byte) (s : State) : Result := .next (s.ioWriteByte (zext16 i) (s.reg8 .al))

/-- `OUT Ib,AX` (R459). -/
def execOutIbAx (i : Byte) (s : State) : Result := .next (s.ioWrite16 (zext16 i) (s.reg16 .ax))

/-- `OUT DX,AL` (R460). -/
def execOutDxAl (s : State) : Result := .next (s.ioWriteByte (s.reg16 .dx) (s.reg8 .al))

/-- `OUT DX,AX` (R460). -/
def execOutDxAx (s : State) : Result := .next (s.ioWrite16 (s.reg16 .dx) (s.reg16 .ax))

end Sys2Proof.Machine
end

