-- ==== Sys2Proof/Machine/ProcessorControl.lean ====
section
/-! DEFINITION. The processor control instructions, and what the prefixes set for the instruction that follows them
(46_processor_control.md, 30_encoding.md R104, R105). -/

namespace Sys2Proof.Machine

/-! ## Flag control -/

/-- `CLC` (R430). -/
def execClc (s : State) : Result := .next (s.setFlag .cf false)

/-- `STC` (R431). -/
def execStc (s : State) : Result := .next (s.setFlag .cf true)

/-- `CMC` (R432). -/
def execCmc (s : State) : Result := .next (s.setFlag .cf (!s.flag .cf))

/-- `CLD` (R433). -/
def execCld (s : State) : Result := .next (s.setFlag .df false)

/-- `STD` (R434). -/
def execStd (s : State) : Result := .next (s.setFlag .df true)

/-- `CLI` (R435). -/
def execCli (s : State) : Result := .next (s.setFlag .ifl false)

/-- `STI` (R440): `inhibit` is set when STI_SHADOW is true. -/
def execSti (s : State) : Result := .next { s.setFlag .ifl true with inhibit := s.inhibit || Config.stiShadow }

/-! ## Halt and wait -/

/-- `HLT` (R436). -/
def execHlt (s : State) : Result := .next { s with halted := true }

/-- `WAIT` (R437): back to IP_start while TEST is not asserted. -/
def execWait (s : State) : Result := .next (if s.test then s else s.jump s.ctx.ipStart)

/-! ## Coprocessor escape -/

/-- `ESC` (R438): PA of a memory operand, and nothing else. -/
def execEsc (_x _y : BitVec 3) (e : Rm16) (s : State) : Result :=
  match e with
  | .reg _ => .next s
  | .mem m => .next (s.pa (s.memSeg m) (s.ea m)).2

/-! ## Prefixes: they set the context of the instruction that follows (R439, R441; 44_string.md R346). -/

/-- The segment override in force: the last one applies (30_encoding.md R105). -/
def State.setOvr (s : State) (sg : Seg) : State := { s with ctx := { s.ctx with ovr := some sg } }

/-- The repeat prefix in force: the last one applies (30_encoding.md R105). -/
def State.setRep (s : State) (p : Rep) : State := { s with ctx := { s.ctx with rep := some p } }

/-- `ES:` (R441). -/
def execSegEs (s : State) : Result := .next (s.setOvr .es)

/-- `CS:` (R441). -/
def execSegCs (s : State) : Result := .next (s.setOvr .cs)

/-- `SS:` (R441). -/
def execSegSs (s : State) : Result := .next (s.setOvr .ss)

/-- `DS:` (R441). -/
def execSegDs (s : State) : Result := .next (s.setOvr .ds)

/-- `LOCK` (R439): no effect. -/
def execLock (s : State) : Result := .next s

/-- `REPNE` (44_string.md R346). -/
def execRepne (s : State) : Result := .next (s.setRep .repne)

/-- `REP`, `REPE` (44_string.md R346). -/
def execRepe (s : State) : Result := .next (s.setRep .repe)

end Sys2Proof.Machine
end

