-- ==== Sys2Proof/Machine/Shifts.lean ====
section
/-! DEFINITION. The shifts and rotates (43_logic.md R305 to R312): by 1 (D0, D1) and by CL (D2, D3). -/

namespace Sys2Proof.Machine

/-- `ROL Eb,1` (R306, R305). -/
def execRolEb1 (e : Rm8) (s : State) : Result := .next (s.shift8 .rol e 1)

/-- `ROR Eb,1` (R307, R305). -/
def execRorEb1 (e : Rm8) (s : State) : Result := .next (s.shift8 .ror e 1)

/-- `RCL Eb,1` (R308, R305). -/
def execRclEb1 (e : Rm8) (s : State) : Result := .next (s.shift8 .rcl e 1)

/-- `RCR Eb,1` (R309, R305). -/
def execRcrEb1 (e : Rm8) (s : State) : Result := .next (s.shift8 .rcr e 1)

/-- `SHL Eb,1` (R310, R305). -/
def execShlEb1 (e : Rm8) (s : State) : Result := .next (s.shift8 .shl e 1)

/-- `SHR Eb,1` (R311, R305). -/
def execShrEb1 (e : Rm8) (s : State) : Result := .next (s.shift8 .shr e 1)

/-- `SAR Eb,1` (R312, R305). -/
def execSarEb1 (e : Rm8) (s : State) : Result := .next (s.shift8 .sar e 1)

/-- `ROL Ew,1` (R306, R305). -/
def execRolEw1 (e : Rm16) (s : State) : Result := .next (s.shift16 .rol e 1)

/-- `ROR Ew,1` (R307, R305). -/
def execRorEw1 (e : Rm16) (s : State) : Result := .next (s.shift16 .ror e 1)

/-- `RCL Ew,1` (R308, R305). -/
def execRclEw1 (e : Rm16) (s : State) : Result := .next (s.shift16 .rcl e 1)

/-- `RCR Ew,1` (R309, R305). -/
def execRcrEw1 (e : Rm16) (s : State) : Result := .next (s.shift16 .rcr e 1)

/-- `SHL Ew,1` (R310, R305). -/
def execShlEw1 (e : Rm16) (s : State) : Result := .next (s.shift16 .shl e 1)

/-- `SHR Ew,1` (R311, R305). -/
def execShrEw1 (e : Rm16) (s : State) : Result := .next (s.shift16 .shr e 1)

/-- `SAR Ew,1` (R312, R305). -/
def execSarEw1 (e : Rm16) (s : State) : Result := .next (s.shift16 .sar e 1)

/-- `ROL Eb,CL` (R306, R305). -/
def execRolEbCl (e : Rm8) (s : State) : Result := .next (s.shift8 .rol e s.clCount)

/-- `ROR Eb,CL` (R307, R305). -/
def execRorEbCl (e : Rm8) (s : State) : Result := .next (s.shift8 .ror e s.clCount)

/-- `RCL Eb,CL` (R308, R305). -/
def execRclEbCl (e : Rm8) (s : State) : Result := .next (s.shift8 .rcl e s.clCount)

/-- `RCR Eb,CL` (R309, R305). -/
def execRcrEbCl (e : Rm8) (s : State) : Result := .next (s.shift8 .rcr e s.clCount)

/-- `SHL Eb,CL` (R310, R305). -/
def execShlEbCl (e : Rm8) (s : State) : Result := .next (s.shift8 .shl e s.clCount)

/-- `SHR Eb,CL` (R311, R305). -/
def execShrEbCl (e : Rm8) (s : State) : Result := .next (s.shift8 .shr e s.clCount)

/-- `SAR Eb,CL` (R312, R305). -/
def execSarEbCl (e : Rm8) (s : State) : Result := .next (s.shift8 .sar e s.clCount)

/-- `ROL Ew,CL` (R306, R305). -/
def execRolEwCl (e : Rm16) (s : State) : Result := .next (s.shift16 .rol e s.clCount)

/-- `ROR Ew,CL` (R307, R305). -/
def execRorEwCl (e : Rm16) (s : State) : Result := .next (s.shift16 .ror e s.clCount)

/-- `RCL Ew,CL` (R308, R305). -/
def execRclEwCl (e : Rm16) (s : State) : Result := .next (s.shift16 .rcl e s.clCount)

/-- `RCR Ew,CL` (R309, R305). -/
def execRcrEwCl (e : Rm16) (s : State) : Result := .next (s.shift16 .rcr e s.clCount)

/-- `SHL Ew,CL` (R310, R305). -/
def execShlEwCl (e : Rm16) (s : State) : Result := .next (s.shift16 .shl e s.clCount)

/-- `SHR Ew,CL` (R311, R305). -/
def execShrEwCl (e : Rm16) (s : State) : Result := .next (s.shift16 .shr e s.clCount)

/-- `SAR Ew,CL` (R312, R305). -/
def execSarEwCl (e : Rm16) (s : State) : Result := .next (s.shift16 .sar e s.clCount)

end Sys2Proof.Machine
end

