-- ==== Sys2Proof/Machine/Strings.lean ====
section
/-! DEFINITION. The string instructions and the repeat prefixes (44_string.md). -/

namespace Sys2Proof.Machine

/-- `delta` for an element of `k` bytes (R340). -/
def State.delta (s : State) (k : Word) : Word := if s.flag .df then 0 - k else k

/-- SI after an element of `k` bytes (R340). -/
def State.stepSi (s : State) (k : Word) : State := s.setReg16 .si (s.reg16 .si + s.delta k)

/-- DI after an element of `k` bytes (R340). -/
def State.stepDi (s : State) (k : Word) : State := s.setReg16 .di (s.reg16 .di + s.delta k)

/-- The source byte, at ovr(DS):SI (R340). -/
def State.source8 (s : State) : Byte × State := s.read8 (s.seg (s.ovr .ds)) (s.reg16 .si)

/-- The source word, at ovr(DS):SI (R340). -/
def State.source16 (s : State) : Word × State := s.read16 (s.seg (s.ovr .ds)) (s.reg16 .si)

/-- The destination byte, at ES:DI (R340). -/
def State.dest8 (s : State) : Byte × State := s.read8 (s.seg .es) (s.reg16 .di)

/-- The destination word, at ES:DI (R340). -/
def State.dest16 (s : State) : Word × State := s.read16 (s.seg .es) (s.reg16 .di)

/-! ## One element (R341 to R345) -/

/-- One element of MOVSB (R341). -/
def State.movs8 (s : State) : State :=
  ((s.source8.2.write8 (s.seg .es) (s.reg16 .di) s.source8.1).stepSi 1).stepDi 1

/-- One element of MOVSW (R341). -/
def State.movs16 (s : State) : State :=
  ((s.source16.2.write16 (s.seg .es) (s.reg16 .di) s.source16.1).stepSi 2).stepDi 2

/-- One element of CMPSB: the flags of source minus destination (R342). -/
def State.cmps8 (s : State) : State :=
  let a := s.source8
  let b := a.2.dest8
  (((b.2.subB a.1 b.1 false).2).stepSi 1).stepDi 1

/-- One element of CMPSW (R342). -/
def State.cmps16 (s : State) : State :=
  let a := s.source16
  let b := a.2.dest16
  (((b.2.subB a.1 b.1 false).2).stepSi 2).stepDi 2

/-- One element of SCASB: the flags of AL minus the element (R343). -/
def State.scas8 (s : State) : State := ((s.dest8.2.subB (s.reg8 .al) s.dest8.1 false).2).stepDi 1

/-- One element of SCASW (R343). -/
def State.scas16 (s : State) : State := ((s.dest16.2.subB (s.reg16 .ax) s.dest16.1 false).2).stepDi 2

/-- One element of LODSB (R344). -/
def State.lods8 (s : State) : State := (s.source8.2.setReg8 .al s.source8.1).stepSi 1

/-- One element of LODSW (R344). -/
def State.lods16 (s : State) : State := (s.source16.2.setReg16 .ax s.source16.1).stepSi 2

/-- One element of STOSB (R345). -/
def State.stos8 (s : State) : State := (s.write8 (s.seg .es) (s.reg16 .di) (s.reg8 .al)).stepDi 1

/-- One element of STOSW (R345). -/
def State.stos16 (s : State) : State := (s.write16 (s.seg .es) (s.reg16 .di) (s.reg16 .ax)).stepDi 2

/-! ## Repetition (R346 to R348) -/

/-- Whether a repetition suspends between two iterations: NMI latched, INTR asserted with IF = 1, or a single step per
iteration (R347). -/
def State.suspends (s : State) : Bool :=
  s.nmiLatched || (s.intr && s.flag .ifl) || (s.ctx.tfStart && Config.repTrapPerIteration)

/-- `Suspend()`: back to the last prefix, at op_offset - 1; the string opcode is the instruction's last byte, so op_offset
is IP - 1 (R348). -/
def State.suspend (s : State) : State := s.jump (s.ip - 2)

/-- Whether the ZF that CMPS or SCAS produced ends the repetition (R346). -/
def Rep.ends (p : Rep) (zf : Bool) : Bool :=
  match p with
  | .repe => !zf
  | .repne => zf

/-- `RepString` (R347) for `fuel` = CX iterations at most; `compares` is true for CMPS and SCAS. -/
def State.repeatString (p : Rep) (compares : Bool) (element : State → State) : Nat → State → State
  | 0, s => s
  | fuel + 1, s =>
    let s1 := element s
    let s2 := s1.setReg16 .cx (s1.reg16 .cx - 1)
    if compares && p.ends (s2.flag .zf) then s2
    else if s2.reg16 .cx = 0 then s2
    else if s2.suspends then s2.suspend
    else State.repeatString p compares element fuel s2

/-- A string instruction: one element, or the repetition a prefix asks for (R346, R347). -/
def State.runString (s : State) (compares : Bool) (element : State → State) : State :=
  match s.ctx.rep with
  | none => element s
  | some p => State.repeatString p compares element (s.reg16 .cx).toNat s

/-- `MOVSB` (R341). -/
def execMovsb (s : State) : Result := .next (s.runString false State.movs8)

/-- `MOVSW` (R341). -/
def execMovsw (s : State) : Result := .next (s.runString false State.movs16)

/-- `CMPSB` (R342). -/
def execCmpsb (s : State) : Result := .next (s.runString true State.cmps8)

/-- `CMPSW` (R342). -/
def execCmpsw (s : State) : Result := .next (s.runString true State.cmps16)

/-- `SCASB` (R343). -/
def execScasb (s : State) : Result := .next (s.runString true State.scas8)

/-- `SCASW` (R343). -/
def execScasw (s : State) : Result := .next (s.runString true State.scas16)

/-- `LODSB` (R344). -/
def execLodsb (s : State) : Result := .next (s.runString false State.lods8)

/-- `LODSW` (R344). -/
def execLodsw (s : State) : Result := .next (s.runString false State.lods16)

/-- `STOSB` (R345). -/
def execStosb (s : State) : Result := .next (s.runString false State.stos8)

/-- `STOSW` (R345). -/
def execStosw (s : State) : Result := .next (s.runString false State.stos16)

end Sys2Proof.Machine
end

