-- ==== Sys2Proof/Machine/Dispatch.lean ====
section
/-! DEFINITION. The dispatch of an instruction to its meaning: one arm per constructor of Instr. -/

namespace Sys2Proof.Machine

/-- What an instruction does in a state whose IP is the offset after it. -/
def exec (i : Instr) (s : State) : Host.Outcome State Fault Refusal :=
  match i with
  | .addEbGb e g => Sys2Proof.Machine.execAddEbGb e g s
  | .addEwGw e g => Sys2Proof.Machine.execAddEwGw e g s
  | .addGbEb g e => Sys2Proof.Machine.execAddGbEb g e s
  | .addGwEw g e => Sys2Proof.Machine.execAddGwEw g e s
  | .addAlIb k => Sys2Proof.Machine.execAddAlIb k s
  | .addAxIw k => Sys2Proof.Machine.execAddAxIw k s
  | .orEbGb e g => Sys2Proof.Machine.execOrEbGb e g s
  | .orEwGw e g => Sys2Proof.Machine.execOrEwGw e g s
  | .orGbEb g e => Sys2Proof.Machine.execOrGbEb g e s
  | .orGwEw g e => Sys2Proof.Machine.execOrGwEw g e s
  | .orAlIb k => Sys2Proof.Machine.execOrAlIb k s
  | .orAxIw k => Sys2Proof.Machine.execOrAxIw k s
  | .adcEbGb e g => Sys2Proof.Machine.execAdcEbGb e g s
  | .adcEwGw e g => Sys2Proof.Machine.execAdcEwGw e g s
  | .adcGbEb g e => Sys2Proof.Machine.execAdcGbEb g e s
  | .adcGwEw g e => Sys2Proof.Machine.execAdcGwEw g e s
  | .adcAlIb k => Sys2Proof.Machine.execAdcAlIb k s
  | .adcAxIw k => Sys2Proof.Machine.execAdcAxIw k s
  | .sbbEbGb e g => Sys2Proof.Machine.execSbbEbGb e g s
  | .sbbEwGw e g => Sys2Proof.Machine.execSbbEwGw e g s
  | .sbbGbEb g e => Sys2Proof.Machine.execSbbGbEb g e s
  | .sbbGwEw g e => Sys2Proof.Machine.execSbbGwEw g e s
  | .sbbAlIb k => Sys2Proof.Machine.execSbbAlIb k s
  | .sbbAxIw k => Sys2Proof.Machine.execSbbAxIw k s
  | .andEbGb e g => Sys2Proof.Machine.execAndEbGb e g s
  | .andEwGw e g => Sys2Proof.Machine.execAndEwGw e g s
  | .andGbEb g e => Sys2Proof.Machine.execAndGbEb g e s
  | .andGwEw g e => Sys2Proof.Machine.execAndGwEw g e s
  | .andAlIb k => Sys2Proof.Machine.execAndAlIb k s
  | .andAxIw k => Sys2Proof.Machine.execAndAxIw k s
  | .subEbGb e g => Sys2Proof.Machine.execSubEbGb e g s
  | .subEwGw e g => Sys2Proof.Machine.execSubEwGw e g s
  | .subGbEb g e => Sys2Proof.Machine.execSubGbEb g e s
  | .subGwEw g e => Sys2Proof.Machine.execSubGwEw g e s
  | .subAlIb k => Sys2Proof.Machine.execSubAlIb k s
  | .subAxIw k => Sys2Proof.Machine.execSubAxIw k s
  | .xorEbGb e g => Sys2Proof.Machine.execXorEbGb e g s
  | .xorEwGw e g => Sys2Proof.Machine.execXorEwGw e g s
  | .xorGbEb g e => Sys2Proof.Machine.execXorGbEb g e s
  | .xorGwEw g e => Sys2Proof.Machine.execXorGwEw g e s
  | .xorAlIb k => Sys2Proof.Machine.execXorAlIb k s
  | .xorAxIw k => Sys2Proof.Machine.execXorAxIw k s
  | .cmpEbGb e g => Sys2Proof.Machine.execCmpEbGb e g s
  | .cmpEwGw e g => Sys2Proof.Machine.execCmpEwGw e g s
  | .cmpGbEb g e => Sys2Proof.Machine.execCmpGbEb g e s
  | .cmpGwEw g e => Sys2Proof.Machine.execCmpGwEw g e s
  | .cmpAlIb k => Sys2Proof.Machine.execCmpAlIb k s
  | .cmpAxIw k => Sys2Proof.Machine.execCmpAxIw k s
  | .pushEs => Sys2Proof.Machine.execPushEs s
  | .popEs => Sys2Proof.Machine.execPopEs s
  | .segEs => Sys2Proof.Machine.execSegEs s
  | .pushCs => Sys2Proof.Machine.execPushCs s
  | .segCs => Sys2Proof.Machine.execSegCs s
  | .pushSs => Sys2Proof.Machine.execPushSs s
  | .popSs => Sys2Proof.Machine.execPopSs s
  | .segSs => Sys2Proof.Machine.execSegSs s
  | .pushDs => Sys2Proof.Machine.execPushDs s
  | .popDs => Sys2Proof.Machine.execPopDs s
  | .segDs => Sys2Proof.Machine.execSegDs s
  | .daa => Sys2Proof.Machine.execDaa s
  | .das => Sys2Proof.Machine.execDas s
  | .aaa => Sys2Proof.Machine.execAaa s
  | .aas => Sys2Proof.Machine.execAas s
  | .incR16 r => Sys2Proof.Machine.execIncR16 r s
  | .decR16 r => Sys2Proof.Machine.execDecR16 r s
  | .pushR16 r => Sys2Proof.Machine.execPushR16 r s
  | .popR16 r => Sys2Proof.Machine.execPopR16 r s
  | .joJb d => Sys2Proof.Machine.execJoJb d s
  | .jnoJb d => Sys2Proof.Machine.execJnoJb d s
  | .jbJb d => Sys2Proof.Machine.execJbJb d s
  | .jaeJb d => Sys2Proof.Machine.execJaeJb d s
  | .jeJb d => Sys2Proof.Machine.execJeJb d s
  | .jneJb d => Sys2Proof.Machine.execJneJb d s
  | .jbeJb d => Sys2Proof.Machine.execJbeJb d s
  | .jaJb d => Sys2Proof.Machine.execJaJb d s
  | .jsJb d => Sys2Proof.Machine.execJsJb d s
  | .jnsJb d => Sys2Proof.Machine.execJnsJb d s
  | .jpJb d => Sys2Proof.Machine.execJpJb d s
  | .jnpJb d => Sys2Proof.Machine.execJnpJb d s
  | .jlJb d => Sys2Proof.Machine.execJlJb d s
  | .jgeJb d => Sys2Proof.Machine.execJgeJb d s
  | .jleJb d => Sys2Proof.Machine.execJleJb d s
  | .jgJb d => Sys2Proof.Machine.execJgJb d s
  | .addEbIb e k => Sys2Proof.Machine.execAddEbIb e k s
  | .addEwIw e k => Sys2Proof.Machine.execAddEwIw e k s
  | .addEbIb82 e k => Sys2Proof.Machine.execAddEbIb82 e k s
  | .addEwIbSx e k => Sys2Proof.Machine.execAddEwIbSx e k s
  | .orEbIb e k => Sys2Proof.Machine.execOrEbIb e k s
  | .orEwIw e k => Sys2Proof.Machine.execOrEwIw e k s
  | .adcEbIb e k => Sys2Proof.Machine.execAdcEbIb e k s
  | .adcEwIw e k => Sys2Proof.Machine.execAdcEwIw e k s
  | .adcEbIb82 e k => Sys2Proof.Machine.execAdcEbIb82 e k s
  | .adcEwIbSx e k => Sys2Proof.Machine.execAdcEwIbSx e k s
  | .sbbEbIb e k => Sys2Proof.Machine.execSbbEbIb e k s
  | .sbbEwIw e k => Sys2Proof.Machine.execSbbEwIw e k s
  | .sbbEbIb82 e k => Sys2Proof.Machine.execSbbEbIb82 e k s
  | .sbbEwIbSx e k => Sys2Proof.Machine.execSbbEwIbSx e k s
  | .andEbIb e k => Sys2Proof.Machine.execAndEbIb e k s
  | .andEwIw e k => Sys2Proof.Machine.execAndEwIw e k s
  | .subEbIb e k => Sys2Proof.Machine.execSubEbIb e k s
  | .subEwIw e k => Sys2Proof.Machine.execSubEwIw e k s
  | .subEbIb82 e k => Sys2Proof.Machine.execSubEbIb82 e k s
  | .subEwIbSx e k => Sys2Proof.Machine.execSubEwIbSx e k s
  | .xorEbIb e k => Sys2Proof.Machine.execXorEbIb e k s
  | .xorEwIw e k => Sys2Proof.Machine.execXorEwIw e k s
  | .cmpEbIb e k => Sys2Proof.Machine.execCmpEbIb e k s
  | .cmpEwIw e k => Sys2Proof.Machine.execCmpEwIw e k s
  | .cmpEbIb82 e k => Sys2Proof.Machine.execCmpEbIb82 e k s
  | .cmpEwIbSx e k => Sys2Proof.Machine.execCmpEwIbSx e k s
  | .testEbGb e g => Sys2Proof.Machine.execTestEbGb e g s
  | .testEwGw e g => Sys2Proof.Machine.execTestEwGw e g s
  | .xchgEbGb e g => Sys2Proof.Machine.execXchgEbGb e g s
  | .xchgEwGw e g => Sys2Proof.Machine.execXchgEwGw e g s
  | .movEbGb e g => Sys2Proof.Machine.execMovEbGb e g s
  | .movEwGw e g => Sys2Proof.Machine.execMovEwGw e g s
  | .movGbEb g e => Sys2Proof.Machine.execMovGbEb g e s
  | .movGwEw g e => Sys2Proof.Machine.execMovGwEw g e s
  | .movEwSw e sg => Sys2Proof.Machine.execMovEwSw e sg s
  | .leaGwM g m => Sys2Proof.Machine.execLeaGwM g m s
  | .movEsEw e => Sys2Proof.Machine.execMovEsEw e s
  | .movSsEw e => Sys2Proof.Machine.execMovSsEw e s
  | .movDsEw e => Sys2Proof.Machine.execMovDsEw e s
  | .popEw e => Sys2Proof.Machine.execPopEw e s
  | .nop => Sys2Proof.Machine.execNop s
  | .xchgAxR16 r => Sys2Proof.Machine.execXchgAxR16 r s
  | .cbw => Sys2Proof.Machine.execCbw s
  | .cwd => Sys2Proof.Machine.execCwd s
  | .callAp o sg => Sys2Proof.Machine.execCallAp o sg s
  | .wait => Sys2Proof.Machine.execWait s
  | .pushf => Sys2Proof.Machine.execPushf s
  | .popf => Sys2Proof.Machine.execPopf s
  | .sahf => Sys2Proof.Machine.execSahf s
  | .lahf => Sys2Proof.Machine.execLahf s
  | .movAlOb o => Sys2Proof.Machine.execMovAlOb o s
  | .movAxOw o => Sys2Proof.Machine.execMovAxOw o s
  | .movObAl o => Sys2Proof.Machine.execMovObAl o s
  | .movOwAx o => Sys2Proof.Machine.execMovOwAx o s
  | .movsb => Sys2Proof.Machine.execMovsb s
  | .movsw => Sys2Proof.Machine.execMovsw s
  | .cmpsb => Sys2Proof.Machine.execCmpsb s
  | .cmpsw => Sys2Proof.Machine.execCmpsw s
  | .testAlIb k => Sys2Proof.Machine.execTestAlIb k s
  | .testAxIw k => Sys2Proof.Machine.execTestAxIw k s
  | .stosb => Sys2Proof.Machine.execStosb s
  | .stosw => Sys2Proof.Machine.execStosw s
  | .lodsb => Sys2Proof.Machine.execLodsb s
  | .lodsw => Sys2Proof.Machine.execLodsw s
  | .scasb => Sys2Proof.Machine.execScasb s
  | .scasw => Sys2Proof.Machine.execScasw s
  | .movR8Ib r k => Sys2Proof.Machine.execMovR8Ib r k s
  | .movR16Iw r k => Sys2Proof.Machine.execMovR16Iw r k s
  | .retIw k => Sys2Proof.Machine.execRetIw k s
  | .ret => Sys2Proof.Machine.execRet s
  | .lesGwMp g m => Sys2Proof.Machine.execLesGwMp g m s
  | .ldsGwMp g m => Sys2Proof.Machine.execLdsGwMp g m s
  | .movEbIb e k => Sys2Proof.Machine.execMovEbIb e k s
  | .movEwIw e k => Sys2Proof.Machine.execMovEwIw e k s
  | .retfIw k => Sys2Proof.Machine.execRetfIw k s
  | .retf => Sys2Proof.Machine.execRetf s
  | .int3 => Sys2Proof.Machine.execInt3 s
  | .intIb k => Sys2Proof.Machine.execIntIb k s
  | .into => Sys2Proof.Machine.execInto s
  | .iret => Sys2Proof.Machine.execIret s
  | .rolEb1 e => Sys2Proof.Machine.execRolEb1 e s
  | .rorEb1 e => Sys2Proof.Machine.execRorEb1 e s
  | .rclEb1 e => Sys2Proof.Machine.execRclEb1 e s
  | .rcrEb1 e => Sys2Proof.Machine.execRcrEb1 e s
  | .shlEb1 e => Sys2Proof.Machine.execShlEb1 e s
  | .shrEb1 e => Sys2Proof.Machine.execShrEb1 e s
  | .sarEb1 e => Sys2Proof.Machine.execSarEb1 e s
  | .rolEw1 e => Sys2Proof.Machine.execRolEw1 e s
  | .rorEw1 e => Sys2Proof.Machine.execRorEw1 e s
  | .rclEw1 e => Sys2Proof.Machine.execRclEw1 e s
  | .rcrEw1 e => Sys2Proof.Machine.execRcrEw1 e s
  | .shlEw1 e => Sys2Proof.Machine.execShlEw1 e s
  | .shrEw1 e => Sys2Proof.Machine.execShrEw1 e s
  | .sarEw1 e => Sys2Proof.Machine.execSarEw1 e s
  | .rolEbCl e => Sys2Proof.Machine.execRolEbCl e s
  | .rorEbCl e => Sys2Proof.Machine.execRorEbCl e s
  | .rclEbCl e => Sys2Proof.Machine.execRclEbCl e s
  | .rcrEbCl e => Sys2Proof.Machine.execRcrEbCl e s
  | .shlEbCl e => Sys2Proof.Machine.execShlEbCl e s
  | .shrEbCl e => Sys2Proof.Machine.execShrEbCl e s
  | .sarEbCl e => Sys2Proof.Machine.execSarEbCl e s
  | .rolEwCl e => Sys2Proof.Machine.execRolEwCl e s
  | .rorEwCl e => Sys2Proof.Machine.execRorEwCl e s
  | .rclEwCl e => Sys2Proof.Machine.execRclEwCl e s
  | .rcrEwCl e => Sys2Proof.Machine.execRcrEwCl e s
  | .shlEwCl e => Sys2Proof.Machine.execShlEwCl e s
  | .shrEwCl e => Sys2Proof.Machine.execShrEwCl e s
  | .sarEwCl e => Sys2Proof.Machine.execSarEwCl e s
  | .aamIb k => Sys2Proof.Machine.execAamIb k s
  | .aadIb k => Sys2Proof.Machine.execAadIb k s
  | .xlat => Sys2Proof.Machine.execXlat s
  | .esc x y e => Sys2Proof.Machine.execEsc x y e s
  | .loopneJb d => Sys2Proof.Machine.execLoopneJb d s
  | .loopeJb d => Sys2Proof.Machine.execLoopeJb d s
  | .loopJb d => Sys2Proof.Machine.execLoopJb d s
  | .jcxzJb d => Sys2Proof.Machine.execJcxzJb d s
  | .inAlIb k => Sys2Proof.Machine.execInAlIb k s
  | .inAxIb k => Sys2Proof.Machine.execInAxIb k s
  | .outIbAl k => Sys2Proof.Machine.execOutIbAl k s
  | .outIbAx k => Sys2Proof.Machine.execOutIbAx k s
  | .callJw d => Sys2Proof.Machine.execCallJw d s
  | .jmpJw d => Sys2Proof.Machine.execJmpJw d s
  | .jmpAp o sg => Sys2Proof.Machine.execJmpAp o sg s
  | .jmpJb d => Sys2Proof.Machine.execJmpJb d s
  | .inAlDx => Sys2Proof.Machine.execInAlDx s
  | .inAxDx => Sys2Proof.Machine.execInAxDx s
  | .outDxAl => Sys2Proof.Machine.execOutDxAl s
  | .outDxAx => Sys2Proof.Machine.execOutDxAx s
  | .lock => Sys2Proof.Machine.execLock s
  | .repne => Sys2Proof.Machine.execRepne s
  | .repe => Sys2Proof.Machine.execRepe s
  | .hlt => Sys2Proof.Machine.execHlt s
  | .cmc => Sys2Proof.Machine.execCmc s
  | .testEbIb e k => Sys2Proof.Machine.execTestEbIb e k s
  | .notEb e => Sys2Proof.Machine.execNotEb e s
  | .negEb e => Sys2Proof.Machine.execNegEb e s
  | .mulEb e => Sys2Proof.Machine.execMulEb e s
  | .imulEb e => Sys2Proof.Machine.execImulEb e s
  | .divEb e => Sys2Proof.Machine.execDivEb e s
  | .idivEb e => Sys2Proof.Machine.execIdivEb e s
  | .testEwIw e k => Sys2Proof.Machine.execTestEwIw e k s
  | .notEw e => Sys2Proof.Machine.execNotEw e s
  | .negEw e => Sys2Proof.Machine.execNegEw e s
  | .mulEw e => Sys2Proof.Machine.execMulEw e s
  | .imulEw e => Sys2Proof.Machine.execImulEw e s
  | .divEw e => Sys2Proof.Machine.execDivEw e s
  | .idivEw e => Sys2Proof.Machine.execIdivEw e s
  | .incEb e => Sys2Proof.Machine.execIncEb e s
  | .decEb e => Sys2Proof.Machine.execDecEb e s
  | .incEw e => Sys2Proof.Machine.execIncEw e s
  | .decEw e => Sys2Proof.Machine.execDecEw e s
  | .callEw e => Sys2Proof.Machine.execCallEw e s
  | .callMp m => Sys2Proof.Machine.execCallMp m s
  | .jmpEw e => Sys2Proof.Machine.execJmpEw e s
  | .jmpMp m => Sys2Proof.Machine.execJmpMp m s
  | .pushEw e => Sys2Proof.Machine.execPushEw e s
  | .clc => Sys2Proof.Machine.execClc s
  | .stc => Sys2Proof.Machine.execStc s
  | .cli => Sys2Proof.Machine.execCli s
  | .sti => Sys2Proof.Machine.execSti s
  | .cld => Sys2Proof.Machine.execCld s
  | .std => Sys2Proof.Machine.execStd s

end Sys2Proof.Machine
end

