-- ==== Sys2Proof/Machine/Pipeline.lean ====
section
/-! DEFINITION. Instruction fetch through the prefetch queue, and the cycle engine (40_pipeline.md R161 to R168). -/

namespace Sys2Proof.Machine

/-- `fetch_byte(phys(CS, pc))`: the byte in memory at the fetch pointer; the latch is unchanged (R163, R168). -/
def State.nextByte (s : State) : Byte := s.memByte (phys (s.seg .cs) s.pc)

/-- `FetchByte()` (R168). When the queue is empty, the byte comes from memory through the queue: it is pushed and popped, so
that the queue is empty again with its head one further, and pc is one further. -/
def State.fetchByte (s : State) : Byte × State :=
  match s.queue.pop with
  | some (b, q) => (b, { s with queue := q })
  | none => (s.nextByte, { s with queue := ⟨(s.queue.head + 1) % 4, []⟩, pc := s.pc + 1 })

/-- The next `n` bytes `FetchByte` will give; the state is unchanged. Log 20. -/
def State.window : Nat → State → List Byte
  | 0, _ => []
  | n + 1, s => s.fetchByte.1 :: State.window n s.fetchByte.2

/-- `FetchByte` done `n` times. -/
def State.consume : Nat → State → State
  | 0, s => s
  | n + 1, s => State.consume n s.fetchByte.2

/-- `Deliver()` (R163): a byte goes into the queue, or the engine stalls when it is full. -/
def State.deliver (s : State) : State :=
  match s.queue.push s.nextByte with
  | none => { s with deliveryPending := true }
  | some q => { s with queue := q, pc := s.pc + 1, deliveryPending := false }

/-- The T-state part of `step_cycle()` (R162). -/
def State.tick (s : State) : State :=
  match s.tstate with
  | .idle => { s with tstate := .t0 }
  | .t0 => { s with tstate := .t1 }
  | .t1 => { s with tstate := .t2 }
  | .t2 => { s with tstate := .t3 }
  | .t3 => { s with tstate := .t4 }.deliver
  | .t4 => if s.deliveryPending then s.deliver else { s with tstate := .idle }

/-- `step_cycle()` (R162, R166): one T-state, then `advance(1)` on every device in list order. -/
def State.stepCycle (s : State) : State := { s.tick with devices := s.tick.devices.map (Device.advance 1) }

end Sys2Proof.Machine
end

