-- ==== Sys2Proof/Machine/Driver.lean ====
section
/-! DEFINITION. The instruction driver `advance_instruction` (40_pipeline.md R167 to R184): reading a whole instruction with its
prefixes (30_encoding.md R103 to R105), the instruction boundary (60_exceptions.md R530) and the halt (40_pipeline.md R169). -/

namespace Sys2Proof.Machine

/-- The errors of advance_instruction (R180). -/
inductive CpuError where
  | unknownOpcode (op : Byte)
  | unimplementedOpcode (op : Byte)
deriving DecidableEq, Repr

/-- What a host call comes to: a state and, in it, the reply; an error, with the state the core is left in (R181: it accepts
further calls); or the stop of a meaning. -/
inductive Called where
  | done (s : State)
  | failed (e : CpuError) (s : State)
  | fault (r : Fault)
  | refused (r : Refusal)
deriving Repr

/-! ## Reading an instruction -/

/-- The opcodes that a ModRM byte follows: HAS_MODRM (30_encoding.md R127). -/
def hasModRm (op : Byte) : Bool :=
  let n := op.toNat
  (n < 0x40 && n % 8 < 4) || (0x80 ≤ n && n ≤ 0x8F) || (0xC4 ≤ n && n ≤ 0xC7) || (0xD0 ≤ n && n ≤ 0xD3) ||
    (0xD8 ≤ n && n ≤ 0xDF) || n == 0xF6 || n == 0xF7 || n == 0xFE || n == 0xFF

/-- The bytes read when the opcode table is consulted: the opcode, and the ModRM byte if it has one (30_encoding.md R103). -/
def headLength (op : Byte) : Nat := if hasModRm op then 2 else 1

/-- What reading a whole instruction comes to. -/
inductive ReadResult where
  /-- The instruction without its prefixes and its opcode byte; the state has them in `ctx` and IP after the last byte. -/
  | instr (op : Byte) (i : Instr) (s : State)
  /-- No row matches (R180). -/
  | unknown (op : Byte) (s : State)
  /-- The meaning of a prefix row stopped: no prefix row's does. -/
  | stopped (r : Called)
deriving Repr

/-- `Decode()` (30_encoding.md R103, R105; 40_pipeline.md R172), with `fuel` prefix bytes still allowed and `last` the last
one read. A prefix acts by its own meaning, which sets the context. -/
def State.readInstr : Nat → Byte → State → ReadResult
  | 0, last, s => .unknown last s
  | fuel + 1, _, s =>
    match decode (s.window maxLength) with
    | .ok i rest =>
      if i.isPrefix then
        match exec i (s.consume (maxLength - rest.length)) with
        | .next s1 => State.readInstr fuel s.fetchByte.1 s1
        | .fault r => .stopped (.fault r)
        | .refused r => .stopped (.refused r)
      else if s.ctx.rep.isSome && !i.isString then
        .unknown s.fetchByte.1 (s.consume (headLength s.fetchByte.1))
      else .instr s.fetchByte.1 i (s.consume (maxLength - rest.length))
    | .unknown op => .unknown op (s.consume (headLength op))
    | .truncated => .unknown s.fetchByte.1 s

/-- The prefix bytes after which the decoder stops: 65,536 (30_encoding.md R105). -/
def prefixLimit : Nat := 65536

/-- `Rewind()` (R182): nothing has been executed. -/
def State.rewind (s : State) : State := { s.jump s.ctx.ipStart with ctx := Ctx.idle }

/-! ## The instruction boundary and the halt -/

/-- Whether NMI is latched, or INTR asserted with IF = 1 (60_exceptions.md R511, R512). -/
def State.externalPending (s : State) : Bool := s.nmiLatched || (s.intr && s.flag .ifl)

/-- Accepts NMI, or else INTR (60_exceptions.md R511, R512, R516). -/
def State.acceptExternal (s : State) : State :=
  if s.nmiLatched then { s with nmiLatched := false }.interrupt 2 else s.interrupt s.intaVector

/-- Whether the single-step trap follows the instruction (60_exceptions.md R514). -/
def State.trapDue (s : State) : Bool := s.ctx.tfStart && (!s.ctx.entered || Config.trapAfterSoftwareInt)

/-- `Boundary(tf_start, inst)` (60_exceptions.md R530, R531). -/
def State.boundary (s : State) : State :=
  if s.inhibit then { s with inhibit := false }
  else if s.externalPending then s.acceptExternal
  else if s.trapDue then s.interrupt 1
  else s

/-- `HaltStep()` (40_pipeline.md R169; 60_exceptions.md R516). -/
def State.haltStep (s : State) : State :=
  if s.externalPending then { { s with halted := false }.acceptExternal with reply := .okay }
  else { s with reply := .halted }

/-! ## advance_instruction -/

/-- Whether the breakpoint check stops the call (R167, R170, R171). -/
def State.atBreakpoint (s : State) : Bool := s.breakpoints.contains (phys (s.seg .cs) s.ip) && !s.bpSkip

/-- The state in which decoding starts: bp_skip cleared, IP_start and tf_start recorded (R167, R184). -/
def State.begin (s : State) : State := { s with bpSkip := false, ctx := ⟨none, none, s.ip, s.flag .tf, false⟩ }

/-- The end of a call that executed an instruction: the boundary, and the outcome Okay (R167, R174). -/
def State.finish (s : State) : State := { s.boundary with ctx := Ctx.idle, reply := .okay }

/-- Executes the instruction that was read, and the boundary after it (R167, R173). -/
def State.execute (op : Byte) (i : Instr) (s : State) : Called :=
  if Config.implemented i then
    match exec i s with
    | .next s1 => .done s1.finish
    | .fault r => .fault r
    | .refused r => .refused r
  else .failed (.unimplementedOpcode op) s.rewind

/-- `advance_instruction()` (R167). -/
def State.advance (s : State) : Called :=
  if s.halted then .done s.haltStep
  else if s.atBreakpoint then .done { s with bpSkip := true, reply := .breakpoint }
  else
    match s.begin.readInstr prefixLimit 0 with
    | .instr op i s1 => s1.execute op i
    | .unknown op s1 => .failed (.unknownOpcode op) s1.rewind
    | .stopped r => r

end Sys2Proof.Machine
end

