-- ==== Sys2Proof/Machine/HostOps.lean ====
section
/-! DEFINITION. The host interface: what each interaction of 70_reset_and_hazards.md R610 does and returns. -/

namespace Sys2Proof.Machine

/-! ## Reset (70_reset_and_hazards.md R601) -/

/-- The eight general registers hold draws (R601; log 26). -/
def State.drawRegs (s : State) : State :=
  { s with
    regs := ⟨Config.freeWord s.draws, Config.freeWord (s.draws + 1), Config.freeWord (s.draws + 2),
      Config.freeWord (s.draws + 3), Config.freeWord (s.draws + 4), Config.freeWord (s.draws + 5),
      Config.freeWord (s.draws + 6), Config.freeWord (s.draws + 7)⟩
    draws := s.draws + 8 }

/-- `reset()` (R601): memory, breakpoints, the devices' identity, and the host's inputs are kept. -/
def State.resetCore (s : State) : State :=
  { s.drawRegs with
    segs := ⟨0, 0xFFFF, 0, 0⟩
    pc := 0
    flags := 0xF002
    queue := ⟨0, []⟩
    tstate := .idle
    deliveryPending := false
    latch := 0
    lastEa := 0
    halted := false
    nmiLatched := false
    inhibit := false
    bpSkip := false
    devices := s.devices.map Device.reset
    ctx := Ctx.idle }

/-! ## Registers (R610, R611) -/

/-- The value of a register the host reads; IP is derived (R610). -/
def State.readRegister (s : State) : RegName → Word
  | .gpr r => s.reg16 r
  | .seg sg => s.seg sg
  | .flags => s.flags
  | .ip => s.ip

/-- A host write of a segment register; a write of CS flushes and keeps IP (R611). -/
def State.hostWriteSeg (s : State) (sg : Seg) (v : Word) : State :=
  match sg with
  | .cs => (s.setSeg .cs v).jump s.ip
  | .es | .ss | .ds => s.setSeg sg v

/-! ## Memory (20_memory.md R64 to R67) -/

/-- Whether the n bytes from address a all exist (R66). -/
def inBounds (a : DWord) (n : Nat) : Bool := decide (n = 0 ∨ a.toNat + n ≤ 0x100000)

/-- The n bytes from address a, lowest first. -/
def State.hostBytes (s : State) (a : DWord) (n : Nat) : List Byte :=
  (List.range n).map (fun k => readMem s.mem (a.toNat + k))

/-- Writes bytes from an address up. -/
def writeBytesAt : List Byte → Nat → List Host.Cell → List Host.Cell
  | [], _, m => m
  | b :: bs, a, m => writeBytesAt bs (a + 1) (writeMem m a b)

/-! ## Breakpoints (40_pipeline.md R170) -/

/-- The breakpoints with one more; the list has no repeats. -/
def addBreakpoint (l : List Phys) (a : Phys) : List Phys := if l.contains a then l else l ++ [a]

/-- The breakpoints without one. -/
def removeBreakpoint (l : List Phys) (a : Phys) : List Phys := l.filter (fun b => b != a)

/-! ## The calls -/

/-- A call that returns, with its reply. -/
def State.answer (s : State) (r : Reply) : Called := .done { s with reply := r }

/-- What an interaction does (70_reset_and_hazards.md R610). -/
def State.call (s : State) : HostCall → Called
  | .reset => s.resetCore.answer .nothing
  | .stepCycle => s.stepCycle.answer .nothing
  | .advance => s.advance
  | .readReg n => s.answer (.word (s.readRegister n))
  | .writeGpr r v => (s.setReg16 r v).answer .nothing
  | .writeSeg sg v => (s.hostWriteSeg sg v).answer .nothing
  | .writeIp v => (s.jump v).answer .nothing
  | .writeFlags v => (State.writeFlags s v).answer .nothing
  | .readBytes a n => s.answer (if inBounds a n then .bytes (s.hostBytes a n) else .outOfBounds)
  | .writeBytes a bs =>
    if inBounds a bs.length then { s with mem := writeBytesAt bs a.toNat s.mem }.answer .nothing
    else s.answer .outOfBounds
  | .fetchByte a => s.answer (if inBounds a 1 then .bytes [readMem s.mem a.toNat] else .outOfBounds)
  | .fetchWord a =>
    s.answer (if inBounds a 2 then .word (join16 (readMem s.mem (a.toNat + 1)) (readMem s.mem a.toNat)) else .outOfBounds)
  | .computePhysical sg off => (s.pa (s.seg sg) off).2.answer (.phys ((s.pa (s.seg sg) off).1.setWidth 32))
  | .readLatch => s.answer (.latches s.latch s.lastEa)
  | .inspectQueue => s.answer (.queue s.queue.items s.tstate)
  | .setBreakpoint a => { s with breakpoints := addBreakpoint s.breakpoints a }.answer .nothing
  | .clearBreakpoint a => { s with breakpoints := removeBreakpoint s.breakpoints a }.answer .nothing
  | .nmiEdge => { s with nmiLatched := true }.answer .nothing
  | .setIntr b => { s with intr := b }.answer .nothing
  | .setIntaVector v => { s with intaVector := v }.answer .nothing
  | .setTest b => { s with test := b }.answer .nothing
  | .diagnosticSummary _ => { s with draws := s.draws + 1 }.answer (.text (Config.summaryText s.draws))
  | .portRead p false => (s.ioReadByte p).2.answer (.bytes [(s.ioReadByte p).1])
  | .portRead p true => (s.ioRead16 p).2.answer (.word (s.ioRead16 p).1)
  | .portWrite p false v => (s.ioWriteByte p (lo8 v)).answer .nothing
  | .portWrite p true v => (s.ioWrite16 p v).answer .nothing

end Sys2Proof.Machine
end

