-- ==== Sys2Proof/Machine/Step.lean ====
section
/-! DEFINITION. One step: the next host call of the agenda, or `advance_instruction` when the agenda is empty (log 1). -/

namespace Sys2Proof.Machine

/-- The outcome of a call as a step's: `UnknownOpcode` is a refusal, `UnimplementedOpcode` a fault of the configuration
(00_scope.md R10). -/
def Called.outcome : Called → Host.Outcome State Fault Refusal
  | .done s => .next s
  | .failed (.unknownOpcode op) _ => .refused (.unknownOpcode op)
  | .failed (.unimplementedOpcode op) _ => .fault (.unimplementedOpcode op)
  | .fault r => .fault r
  | .refused r => .refused r

/-- One step. -/
def step (s : State) : Host.Outcome State Fault Refusal :=
  match s.agenda with
  | [] => s.advance.outcome
  | c :: rest => ({ s with agenda := rest }.call c).outcome

/-- `s` with an instruction's bytes in memory at CS:IP, nothing queued, no call before `advance_instruction`, and neither the
halt nor the breakpoint check in the way. -/
def State.withFetchWord (s : State) (nbits w : Nat) : State :=
  { (s.jump s.ip) with
    mem := ((tableBytes nbits w).foldl
      (fun (p : Word × List Host.Cell) b => (p.1 + 1, writeMem p.2 (phys (s.seg .cs) p.1).toNat b)) (s.ip, s.mem)).2
    halted := false
    bpSkip := s.breakpoints.contains (phys (s.seg .cs) s.ip)
    agenda := [] }

end Sys2Proof.Machine
end

