-- ==== Sys2Proof/Safety.lean ====
section
/-! DEFINITION. The vocabulary of the claims: where an operand lies and what it holds, what an instruction may change, the
flags a result gives in plain arithmetic, the groups of instructions of one shape, and the invariant of the machine. -/

namespace Sys2Proof.Machine

/-! ## Places and their contents -/

/-- The byte at a place. -/
def State.at8 (s : State) : Loc Reg8 → Byte
  | .reg r => s.reg8 r
  | .mem x o => s.memByte (phys x o)

/-- The word in memory at x:o, low byte first, the second byte at the next offset of the segment (20_memory.md R70, R72). -/
def State.wordAt (s : State) (x o : Word) : Word := join16 (s.memByte (phys x (o + 1))) (s.memByte (phys x o))

/-- The word at a place. -/
def State.at16 (s : State) : Loc Reg16 → Word
  | .reg r => s.reg16 r
  | .mem x o => s.wordAt x o

/-- The bytes of memory a byte place is. -/
def Loc.stores8 : Loc Reg8 → List Phys
  | .reg _ => []
  | .mem x o => [phys x o]

/-- The bytes of memory a word place is. -/
def Loc.stores16 : Loc Reg16 → List Phys
  | .reg _ => []
  | .mem x o => [phys x o, phys x (o + 1)]

/-- The last byte of memory an access of a byte place touches. -/
def Loc.last8 : Loc Reg8 → Option Phys
  | .reg _ => none
  | .mem x o => some (phys x o)

/-- The last byte of memory an access of a word place touches. -/
def Loc.last16 : Loc Reg16 → Option Phys
  | .reg _ => none
  | .mem x o => some (phys x (o + 1))

/-- The byte register a byte place is. -/
def Loc.halves : Loc Reg8 → List Reg8
  | .reg r => [r]
  | .mem _ _ => []

/-- The word register a word place is. -/
def Loc.regs : Loc Reg16 → List Reg16
  | .reg r => [r]
  | .mem _ _ => []

/-! ## What an instruction may change -/

/-- What may change, all else being unchanged. -/
structure Effect where
  regs : List Reg16 := []
  halves : List Reg8 := []
  segs : List Seg := []
  flags : List Flag := []
  /-- FLAGS is written as a whole. -/
  allFlags : Bool := false
  /-- The bytes stored to. -/
  stores : List Phys := []
  /-- The last data byte accessed (20_memory.md R63). -/
  last : Option Phys := none
  draws : Nat := 0
  /-- pc, the queue and the T-state are written by a control transfer. -/
  transfer : Bool := false
  halted : Bool := false
  inhibit : Bool := false
  devices : Bool := false
  ctx : Bool := false

/-- From `s` to `t` nothing changes but what the effect lists; the latch and its mirror take the last address accessed
(20_memory.md R63, 10_state.md R34). -/
structure Changes (e : Effect) (s t : State) : Prop where
  regs : ∀ r, r ∉ e.regs → (∀ h ∈ e.halves, Reg8.whole h ≠ r) → t.reg16 r = s.reg16 r
  halves : ∀ h, h ∉ e.halves → Reg8.whole h ∉ e.regs → t.reg8 h = s.reg8 h
  segs : ∀ g, g ∉ e.segs → t.seg g = s.seg g
  flags : e.allFlags = false → ∀ k, (∀ f ∈ e.flags, f.bit ≠ k) → t.flags.getLsbD k = s.flags.getLsbD k
  mem : ∀ a, a ∉ e.stores → t.memByte a = s.memByte a
  latch : t.latch = e.last.getD s.latch
  lastEa : t.lastEa = (e.last.map (fun a => a.setWidth 32)).getD s.lastEa
  draws : t.draws = s.draws + e.draws
  pipe : e.transfer = false →
    t.pc = s.pc ∧ t.queue = s.queue ∧ t.tstate = s.tstate ∧ t.deliveryPending = s.deliveryPending
  halted : e.halted = false → t.halted = s.halted
  inhibit : e.inhibit = false → t.inhibit = s.inhibit
  devices : e.devices = false → t.devices = s.devices
  ctx : e.ctx = false → t.ctx = s.ctx
  rest : t.nmiLatched = s.nmiLatched ∧ t.bpSkip = s.bpSkip ∧ t.intr = s.intr ∧ t.intaVector = s.intaVector ∧
    t.test = s.test ∧ t.breakpoints = s.breakpoints ∧ t.agenda = s.agenda ∧ t.reply = s.reply

/-- The state after a control transfer to an offset: IP and pc are the target, and the queue is flushed (40_pipeline.md
R165). -/
def LandsAt (t : State) (target : Word) : Prop :=
  t.ip = target ∧ t.pc = target ∧ t.queue.items = [] ∧ t.tstate = .idle ∧ t.deliveryPending = false

/-- Interrupt n has been entered from `s` with FLAGS = `f` on the stack (60_exceptions.md R520): FLAGS, CS and IP are pushed
in that order, IF and TF are cleared, the halt is left, and CS:IP is the vector's pointer as it stands after the pushes. -/
def Entered (n : Byte) (f : Word) (s t : State) : Prop :=
  t.reg16 .sp = s.reg16 .sp - 6 ∧
  t.wordAt (s.seg .ss) (s.reg16 .sp - 2) = f ∧
  t.wordAt (s.seg .ss) (s.reg16 .sp - 4) = s.seg .cs ∧
  t.wordAt (s.seg .ss) (s.reg16 .sp - 6) = s.ip ∧
  t.flag .ifl = false ∧ t.flag .tf = false ∧ t.halted = false ∧
  t.seg .cs = t.wordAt 0 (BitVec.ofNat 16 (4 * n.toNat + 2)) ∧
  LandsAt t (t.wordAt 0 (BitVec.ofNat 16 (4 * n.toNat)))

/-- The six bytes below SS:SP: the frame of an interrupt. -/
def State.frameBytes (s : State) : List Phys :=
  [1, 2, 3, 4, 5, 6].map (fun k => phys (s.seg .ss) (s.reg16 .sp - k))

/-- The last byte an interrupt's entry reads, the high byte of the vector's segment. -/
def vectorEnd (n : Byte) : Phys := phys 0 (BitVec.ofNat 16 (4 * n.toNat + 3))

/-! ## Results and flags in plain arithmetic -/

/-- A byte has an even number of ones. -/
def evenOnes (v : Byte) : Bool :=
  !(v.getLsbD 0 ^^ v.getLsbD 1 ^^ v.getLsbD 2 ^^ v.getLsbD 3 ^^ v.getLsbD 4 ^^ v.getLsbD 5 ^^ v.getLsbD 6 ^^ v.getLsbD 7)

/-- SF, ZF and PF tell of `r`: negative, zero, and an even number of ones in the low byte (42_arithmetic.md R250). -/
def Describes {w : Nat} (t : State) (r : BitVec w) : Prop :=
  t.flag .sf = decide (r.toInt < 0) ∧ t.flag .zf = decide (r.toNat = 0) ∧ t.flag .pf = evenOnes (r.setWidth 8)

/-- The result of a two-operand operation, with `c` the carry before (42_arithmetic.md R253 to R257, 43_logic.md R300 to
R302). -/
def AluOp.value {w : Nat} (op : AluOp) (a b : BitVec w) (c : Bool) : BitVec w :=
  match op with
  | .add => a + b
  | .adc => a + b + BitVec.ofNat w c.toNat
  | .sub | .cmp => a - b
  | .sbb => a - b - BitVec.ofNat w c.toNat
  | .and => a &&& b
  | .or => a ||| b
  | .xor => a ^^^ b

/-- The carry or borrow an operation takes in. -/
def AluOp.carryIn (op : AluOp) (c : Bool) : Nat :=
  match op with
  | .adc | .sbb => c.toNat
  | _ => 0

/-- CF after: the carry out of the top bit, or the borrow into it. -/
def AluOp.carryOut {w : Nat} (op : AluOp) (a b : BitVec w) (c : Bool) : Bool :=
  match op with
  | .add | .adc => decide (2 ^ w ≤ a.toNat + b.toNat + op.carryIn c)
  | .sub | .cmp | .sbb => decide (a.toNat < b.toNat + op.carryIn c)
  | .and | .or | .xor => false

/-- AF after: the carry out of bit 3, or the borrow into it; `none` where it is a draw. -/
def AluOp.halfCarry {w : Nat} (op : AluOp) (a b : BitVec w) (c : Bool) : Option Bool :=
  match op with
  | .add | .adc => some (decide (16 ≤ a.toNat % 16 + b.toNat % 16 + op.carryIn c))
  | .sub | .cmp | .sbb => some (decide (a.toNat % 16 < b.toNat % 16 + op.carryIn c))
  | .and | .or | .xor => none

/-- The true signed result. -/
def AluOp.exact {w : Nat} (op : AluOp) (a b : BitVec w) (c : Bool) : Int :=
  match op with
  | .add | .adc => a.toInt + b.toInt + op.carryIn c
  | .sub | .cmp | .sbb => a.toInt - b.toInt - op.carryIn c
  | .and | .or | .xor => (op.value a b c).toInt

/-- OF after: the result read as signed is not the true one. -/
def AluOp.overflows {w : Nat} (op : AluOp) (a b : BitVec w) (c : Bool) : Bool :=
  decide ((op.value a b c).toInt ≠ op.exact a b c)

/-- How many draws an operation makes: one, for AF, if it is logical. -/
def AluOp.drawn (op : AluOp) : Nat :=
  match op with
  | .and | .or | .xor => 1
  | _ => 0

/-- The six result flags after an operation on a and b with carry c: AF, where it is a draw, is draw number d. -/
def AluOp.Sets {w : Nat} (op : AluOp) (a b : BitVec w) (c : Bool) (d : Nat) (t : State) : Prop :=
  t.flag .cf = op.carryOut a b c ∧ t.flag .ofl = op.overflows a b c ∧
  t.flag .af = (op.halfCarry a b c).getD ((Config.freeWord d).getLsbD 0) ∧ Describes t (op.value a b c)

/-- The value after n steps of a shift or rotate, n not 0, with `c` the carry before (43_logic.md R306 to R312): RCL and RCR
turn the operand with the carry above it. -/
def ShiftOp.value {w : Nat} (op : ShiftOp) (n : Nat) (x : BitVec w) (c : Bool) : BitVec w :=
  match op with
  | .rol => x.rotateLeft n
  | .ror => x.rotateRight n
  | .rcl => ((BitVec.cons c x).rotateLeft n).setWidth w
  | .rcr => ((BitVec.cons c x).rotateRight n).setWidth w
  | .shl => BitVec.ofNat w (x.toNat * 2 ^ n)
  | .shr => BitVec.ofNat w (x.toNat / 2 ^ n)
  | .sar => BitVec.ofInt w (x.toInt / 2 ^ n)

/-- CF after n steps: the last bit moved out. -/
def ShiftOp.carry {w : Nat} (op : ShiftOp) (n : Nat) (x : BitVec w) (c : Bool) : Bool :=
  match op with
  | .rol => (x.rotateLeft n).getLsbD 0
  | .ror => (x.rotateRight n).msb
  | .rcl => ((BitVec.cons c x).rotateLeft n).msb
  | .rcr => ((BitVec.cons c x).rotateRight n).msb
  | .shl => (x.toNat * 2 ^ n).testBit w
  | .shr => (x.toNat * 2 / 2 ^ n).testBit 0
  | .sar => decide ((x.toInt * 2 / 2 ^ n) % 2 = 1)

/-- OF after one step: for the left moves and RCR and ROR, whether the top bit changed; for SHR the old top bit; SAR never
changes the sign. -/
def ShiftOp.overflow {w : Nat} (op : ShiftOp) (x y : BitVec w) : Bool :=
  match op with
  | .shr => x.msb
  | .sar => false
  | _ => x.msb ^^ y.msb

/-- The flags of the list hold the draws that follow each other from number n on (00_scope.md R9). -/
def Drawn (t : State) (n : Nat) (l : List Flag) : Prop :=
  ∀ (k : Nat) (f : Flag), l[k]? = some f → t.flag f = (Config.freeWord (n + k)).getLsbD 0

/-! ## Groups of instructions of one shape -/

/-- A byte source. -/
inductive Src8 where
  | place (e : Rm8)
  | imm (i : Byte)
deriving DecidableEq, Repr

/-- A word source. -/
inductive Src16 where
  | place (e : Rm16)
  | imm (i : Word)
  | seg (g : Seg)
deriving DecidableEq, Repr

/-- The value of a byte source. -/
def State.src8 (s : State) : Src8 → Byte
  | .place e => s.at8 (s.loc e)
  | .imm i => i

/-- The value of a word source. -/
def State.src16 (s : State) : Src16 → Word
  | .place e => s.at16 (s.loc e)
  | .imm i => i
  | .seg g => s.seg g

/-- The last byte of memory a byte source's read touches. -/
def State.lastSrc8 (s : State) : Src8 → Option Phys
  | .place e => (s.loc e).last8
  | .imm _ => none

/-- The last byte of memory a word source's read touches. -/
def State.lastSrc16 (s : State) : Src16 → Option Phys
  | .place e => (s.loc e).last16
  | .imm _ | .seg _ => none

/-- The two-operand byte instructions: operation, destination, source (42_arithmetic.md R252). -/
def asAlu8 : Instr → Option (AluOp × Rm8 × Src8)
  | .addEbGb e g => some (.add, e, .place (.reg g))
  | .orEbGb e g => some (.or, e, .place (.reg g))
  | .adcEbGb e g => some (.adc, e, .place (.reg g))
  | .sbbEbGb e g => some (.sbb, e, .place (.reg g))
  | .andEbGb e g => some (.and, e, .place (.reg g))
  | .subEbGb e g => some (.sub, e, .place (.reg g))
  | .xorEbGb e g => some (.xor, e, .place (.reg g))
  | .cmpEbGb e g => some (.cmp, e, .place (.reg g))
  | .addGbEb g e => some (.add, .reg g, .place e)
  | .orGbEb g e => some (.or, .reg g, .place e)
  | .adcGbEb g e => some (.adc, .reg g, .place e)
  | .sbbGbEb g e => some (.sbb, .reg g, .place e)
  | .andGbEb g e => some (.and, .reg g, .place e)
  | .subGbEb g e => some (.sub, .reg g, .place e)
  | .xorGbEb g e => some (.xor, .reg g, .place e)
  | .cmpGbEb g e => some (.cmp, .reg g, .place e)
  | .addAlIb i => some (.add, .reg .al, .imm i)
  | .orAlIb i => some (.or, .reg .al, .imm i)
  | .adcAlIb i => some (.adc, .reg .al, .imm i)
  | .sbbAlIb i => some (.sbb, .reg .al, .imm i)
  | .andAlIb i => some (.and, .reg .al, .imm i)
  | .subAlIb i => some (.sub, .reg .al, .imm i)
  | .xorAlIb i => some (.xor, .reg .al, .imm i)
  | .cmpAlIb i => some (.cmp, .reg .al, .imm i)
  | .addEbIb e i | .addEbIb82 e i => some (.add, e, .imm i)
  | .orEbIb e i => some (.or, e, .imm i)
  | .adcEbIb e i | .adcEbIb82 e i => some (.adc, e, .imm i)
  | .sbbEbIb e i | .sbbEbIb82 e i => some (.sbb, e, .imm i)
  | .andEbIb e i => some (.and, e, .imm i)
  | .subEbIb e i | .subEbIb82 e i => some (.sub, e, .imm i)
  | .xorEbIb e i => some (.xor, e, .imm i)
  | .cmpEbIb e i | .cmpEbIb82 e i => some (.cmp, e, .imm i)
  | _ => none

/-- The two-operand word instructions; opcode 83 sign-extends its byte (42_arithmetic.md R252). -/
def asAlu16 : Instr → Option (AluOp × Rm16 × Src16)
  | .addEwGw e g => some (.add, e, .place (.reg g))
  | .orEwGw e g => some (.or, e, .place (.reg g))
  | .adcEwGw e g => some (.adc, e, .place (.reg g))
  | .sbbEwGw e g => some (.sbb, e, .place (.reg g))
  | .andEwGw e g => some (.and, e, .place (.reg g))
  | .subEwGw e g => some (.sub, e, .place (.reg g))
  | .xorEwGw e g => some (.xor, e, .place (.reg g))
  | .cmpEwGw e g => some (.cmp, e, .place (.reg g))
  | .addGwEw g e => some (.add, .reg g, .place e)
  | .orGwEw g e => some (.or, .reg g, .place e)
  | .adcGwEw g e => some (.adc, .reg g, .place e)
  | .sbbGwEw g e => some (.sbb, .reg g, .place e)
  | .andGwEw g e => some (.and, .reg g, .place e)
  | .subGwEw g e => some (.sub, .reg g, .place e)
  | .xorGwEw g e => some (.xor, .reg g, .place e)
  | .cmpGwEw g e => some (.cmp, .reg g, .place e)
  | .addAxIw i => some (.add, .reg .ax, .imm i)
  | .orAxIw i => some (.or, .reg .ax, .imm i)
  | .adcAxIw i => some (.adc, .reg .ax, .imm i)
  | .sbbAxIw i => some (.sbb, .reg .ax, .imm i)
  | .andAxIw i => some (.and, .reg .ax, .imm i)
  | .subAxIw i => some (.sub, .reg .ax, .imm i)
  | .xorAxIw i => some (.xor, .reg .ax, .imm i)
  | .cmpAxIw i => some (.cmp, .reg .ax, .imm i)
  | .addEwIw e i => some (.add, e, .imm i)
  | .orEwIw e i => some (.or, e, .imm i)
  | .adcEwIw e i => some (.adc, e, .imm i)
  | .sbbEwIw e i => some (.sbb, e, .imm i)
  | .andEwIw e i => some (.and, e, .imm i)
  | .subEwIw e i => some (.sub, e, .imm i)
  | .xorEwIw e i => some (.xor, e, .imm i)
  | .cmpEwIw e i => some (.cmp, e, .imm i)
  | .addEwIbSx e i => some (.add, e, .imm (i.signExtend 16))
  | .adcEwIbSx e i => some (.adc, e, .imm (i.signExtend 16))
  | .sbbEwIbSx e i => some (.sbb, e, .imm (i.signExtend 16))
  | .subEwIbSx e i => some (.sub, e, .imm (i.signExtend 16))
  | .cmpEwIbSx e i => some (.cmp, e, .imm (i.signExtend 16))
  | _ => none

/-- TEST of bytes: its operands (43_logic.md R303). -/
def asTest8 : Instr → Option (Rm8 × Src8)
  | .testEbGb e g => some (e, .place (.reg g))
  | .testAlIb i => some (.reg .al, .imm i)
  | .testEbIb e i => some (e, .imm i)
  | _ => none

/-- TEST of words: its operands (43_logic.md R303). -/
def asTest16 : Instr → Option (Rm16 × Src16)
  | .testEwGw e g => some (e, .place (.reg g))
  | .testAxIw i => some (.reg .ax, .imm i)
  | .testEwIw e i => some (e, .imm i)
  | _ => none

/-- INC (`.add`) and DEC (`.sub`) of a byte (42_arithmetic.md R258, R259). -/
def asIncDec8 : Instr → Option (AluOp × Rm8)
  | .incEb e => some (.add, e)
  | .decEb e => some (.sub, e)
  | _ => none

/-- INC (`.add`) and DEC (`.sub`) of a word (42_arithmetic.md R258, R259). -/
def asIncDec16 : Instr → Option (AluOp × Rm16)
  | .incEw e => some (.add, e)
  | .decEw e => some (.sub, e)
  | .incR16 r => some (.add, .reg r)
  | .decR16 r => some (.sub, .reg r)
  | _ => none

/-- The byte shifts and rotates; `true` is a count in CL (43_logic.md R305 to R312). -/
def asShift8 : Instr → Option (ShiftOp × Rm8 × Bool)
  | .rolEb1 e => some (.rol, e, false)
  | .rorEb1 e => some (.ror, e, false)
  | .rclEb1 e => some (.rcl, e, false)
  | .rcrEb1 e => some (.rcr, e, false)
  | .shlEb1 e => some (.shl, e, false)
  | .shrEb1 e => some (.shr, e, false)
  | .sarEb1 e => some (.sar, e, false)
  | .rolEbCl e => some (.rol, e, true)
  | .rorEbCl e => some (.ror, e, true)
  | .rclEbCl e => some (.rcl, e, true)
  | .rcrEbCl e => some (.rcr, e, true)
  | .shlEbCl e => some (.shl, e, true)
  | .shrEbCl e => some (.shr, e, true)
  | .sarEbCl e => some (.sar, e, true)
  | _ => none

/-- The word shifts and rotates (43_logic.md R305 to R312). -/
def asShift16 : Instr → Option (ShiftOp × Rm16 × Bool)
  | .rolEw1 e => some (.rol, e, false)
  | .rorEw1 e => some (.ror, e, false)
  | .rclEw1 e => some (.rcl, e, false)
  | .rcrEw1 e => some (.rcr, e, false)
  | .shlEw1 e => some (.shl, e, false)
  | .shrEw1 e => some (.shr, e, false)
  | .sarEw1 e => some (.sar, e, false)
  | .rolEwCl e => some (.rol, e, true)
  | .rorEwCl e => some (.ror, e, true)
  | .rclEwCl e => some (.rcl, e, true)
  | .rcrEwCl e => some (.rcr, e, true)
  | .shlEwCl e => some (.shl, e, true)
  | .shrEwCl e => some (.shr, e, true)
  | .sarEwCl e => some (.sar, e, true)
  | _ => none

/-- The count of a shift: 1, or all of CL (43_logic.md R305). -/
def State.shiftCount (s : State) (byCl : Bool) : Nat := if byCl then (s.reg8 .cl).toNat else 1

/-- The byte moves: destination and source (41_data_transfer.md R201 to R206). -/
def asMove8 : Instr → Option (Rm8 × Src8)
  | .movEbGb e g => some (e, .place (.reg g))
  | .movGbEb g e => some (.reg g, .place e)
  | .movEbIb e i => some (e, .imm i)
  | .movR8Ib r i => some (.reg r, .imm i)
  | .movAlOb o => some (.reg .al, .place (.mem (.direct o)))
  | .movObAl o => some (.mem (.direct o), .place (.reg .al))
  | _ => none

/-- The word moves that do not load a segment register (41_data_transfer.md R201 to R207). -/
def asMove16 : Instr → Option (Rm16 × Src16)
  | .movEwGw e g => some (e, .place (.reg g))
  | .movGwEw g e => some (.reg g, .place e)
  | .movEwIw e i => some (e, .imm i)
  | .movR16Iw r i => some (.reg r, .imm i)
  | .movAxOw o => some (.reg .ax, .place (.mem (.direct o)))
  | .movOwAx o => some (.mem (.direct o), .place (.reg .ax))
  | .movEwSw e g => some (e, .seg g)
  | _ => none

/-- The loads of a segment register by MOV (41_data_transfer.md R208). -/
def asLoadSeg : Instr → Option (Seg × Rm16)
  | .movEsEw e => some (.es, e)
  | .movSsEw e => some (.ss, e)
  | .movDsEw e => some (.ds, e)
  | _ => none

/-- The pushes of a register, a word of memory or a segment register (41_data_transfer.md R212 to R214). -/
def asPush : Instr → Option Src16
  | .pushR16 r => some (.place (.reg r))
  | .pushEw e => some (.place e)
  | .pushEs => some (.seg .es)
  | .pushCs => some (.seg .cs)
  | .pushSs => some (.seg .ss)
  | .pushDs => some (.seg .ds)
  | _ => none

/-- The pops of a register or a word of memory (41_data_transfer.md R215, R217). -/
def asPop : Instr → Option Rm16
  | .popR16 r => some (.reg r)
  | .popEw e => some e
  | _ => none

/-- The pops of a segment register (41_data_transfer.md R216). -/
def asPopSeg : Instr → Option Seg
  | .popEs => some .es
  | .popSs => some .ss
  | .popDs => some .ds
  | _ => none

/-- The conditional jumps: what the flags CF, PF, ZF, SF and OF must be, and the displacement (45_control.md R385). -/
def asJcc : Instr → Option ((Bool → Bool → Bool → Bool → Bool → Prop) × Byte)
  | .joJb d => some (fun _ _ _ _ o => o = true, d)
  | .jnoJb d => some (fun _ _ _ _ o => o = false, d)
  | .jbJb d => some (fun c _ _ _ _ => c = true, d)
  | .jaeJb d => some (fun c _ _ _ _ => c = false, d)
  | .jeJb d => some (fun _ _ z _ _ => z = true, d)
  | .jneJb d => some (fun _ _ z _ _ => z = false, d)
  | .jbeJb d => some (fun c _ z _ _ => c = true ∨ z = true, d)
  | .jaJb d => some (fun c _ z _ _ => c = false ∧ z = false, d)
  | .jsJb d => some (fun _ _ _ n _ => n = true, d)
  | .jnsJb d => some (fun _ _ _ n _ => n = false, d)
  | .jpJb d => some (fun _ p _ _ _ => p = true, d)
  | .jnpJb d => some (fun _ p _ _ _ => p = false, d)
  | .jlJb d => some (fun _ _ _ n o => n ≠ o, d)
  | .jgeJb d => some (fun _ _ _ n o => n = o, d)
  | .jleJb d => some (fun _ _ z n o => z = true ∨ n ≠ o, d)
  | .jgJb d => some (fun _ _ z n o => z = false ∧ n = o, d)
  | _ => none

/-- The string instructions: what one element is moved or compared in bytes, and whether the instruction is CMPS or SCAS
(44_string.md R341 to R346). -/
def asString : Instr → Option (Nat × Bool)
  | .movsb | .stosb | .lodsb => some (1, false)
  | .movsw | .stosw | .lodsw => some (2, false)
  | .cmpsb | .scasb => some (1, true)
  | .cmpsw | .scasw => some (2, true)
  | _ => none

/-- An index register after an element of k bytes, by DF (44_string.md R340). -/
def State.stepped (s : State) (r : Reg16) (k : Word) : Word :=
  if s.flag .df then s.reg16 r - k else s.reg16 r + k

/-- The segment prefixes (30_encoding.md R104). -/
def asSegPrefix : Instr → Option Seg
  | .segEs => some .es
  | .segCs => some .cs
  | .segSs => some .ss
  | .segDs => some .ds
  | _ => none

/-- The bytes that are prefixes (30_encoding.md R104). -/
def prefixBytes : List Byte := [0x26, 0x2E, 0x36, 0x3E, 0xF0, 0xF2, 0xF3]

/-- The repeat prefixes (30_encoding.md R104). -/
def asRepPrefix : Instr → Option Rep
  | .repe => some .repe
  | .repne => some .repne
  | _ => none

/-! ## Instruction length (30_encoding.md R127) -/

/-- IMM(op, reg): how many bytes of immediate follow. -/
def immLength (op : Nat) (reg : Nat) : Nat :=
  if op = 0x9A ∨ op = 0xEA then 4
  else if op ∈ [0x05, 0x0D, 0x15, 0x1D, 0x25, 0x2D, 0x35, 0x3D, 0x81, 0xA9, 0xC2, 0xC7, 0xCA, 0xE8, 0xE9] ∨
    (0xA0 ≤ op ∧ op ≤ 0xA3) ∨ (0xB8 ≤ op ∧ op ≤ 0xBF) ∨ (op = 0xF7 ∧ reg = 0) then 2
  else if op ∈ [0x04, 0x0C, 0x14, 0x1C, 0x24, 0x2C, 0x34, 0x3C, 0x80, 0x82, 0x83, 0xA8, 0xC6, 0xCD, 0xD4, 0xD5, 0xEB] ∨
    (0x70 ≤ op ∧ op ≤ 0x7F) ∨ (0xB0 ≤ op ∧ op ≤ 0xB7) ∨ (0xE0 ≤ op ∧ op ≤ 0xE7) ∨ (op = 0xF6 ∧ reg = 0) then 1
  else 0

/-- How many bytes of displacement follow a ModRM byte. -/
def dispLength (modrm : Byte) : Nat :=
  if modrm.toNat / 64 = 2 ∨ (modrm.toNat / 64 = 0 ∧ modrm.toNat % 8 = 6) then 2
  else if modrm.toNat / 64 = 1 then 1
  else 0

/-- The length of a row's bytes, from its opcode and the byte after it. -/
def rowLength (op next : Byte) : Nat :=
  if hasModRm op then 2 + dispLength next + immLength op.toNat (next.toNat / 8 % 8)
  else 1 + immLength op.toNat 0

/-! ## The invariant -/

/-- The protocol's state fits its phase: a command is active exactly outside None, with parameters still to come exactly in
Command, and result bytes only in Result (60_exceptions.md R550, R557). -/
def Fdc.Inv (f : Fdc) : Prop :=
  (f.phase = .none ↔ f.active = none) ∧
  (∀ a, f.active = some a → (f.phase = .command ↔ 0 < a.remaining)) ∧
  (f.phase ≠ .result → f.result = [])

/-- The reserved bits of FLAGS hold their fixed values (10_state.md R29). -/
def flagsFixed (w : Word) : Prop := w &&& 0xF02A = 0xF002

/-- What holds between calls: memory in canonical form, FLAGS' reserved bits, the queue within its bounds, the mirror of the
latch, a pending delivery only in T4, the controllers' states, no instruction in progress, and no breakpoint listed twice
(20_memory.md R60; 10_state.md R29, R32, R34; 40_pipeline.md R151, R170; 60_exceptions.md R550). -/
structure State.Inv (s : State) : Prop where
  mem : Memory.wf s.mem = true
  flags : flagsFixed s.flags
  queue : s.queue.wf = true
  mirror : s.lastEa = s.latch.setWidth 32
  pending : s.deliveryPending = true → s.tstate = .t4
  fdc : ∀ f, Device.fdc f ∈ s.devices → f.Inv
  ctx : s.ctx = Ctx.idle
  breakpoints : s.breakpoints.Nodup

end Sys2Proof.Machine
end

