-- ==== Sys2Proof/Certificates/Slice0/Obligations.lean ====
section
/-! DEFINITION. The statements for the provers, each from the rules of spec/ that its docstring names. A premise
`Memory.wf s.mem = true` is the memory part of the invariant `State.Inv`, which every step keeps. -/

section

open Sys2Proof Sys2Proof.Machine

/-! ## Encoding -/

/-- Words written out from the encoding tables decode to the instructions they stand for (30_encoding.md R117 to R126). -/
def Obligations.WordsDecode : Prop :=
  decode [0x00, 0x00] = .ok (.addEbGb (.mem (.base .bxSi .none)) .al) [] ∧
  decode [0x8B, 0x42, 0xFE] = .ok (.movGwEw .ax (.mem (.base .bpSi (.d8 0xFE)))) [] ∧
  decode [0xC7, 0x06, 0x04, 0x00, 0x34, 0x12] = .ok (.movEwIw (.mem (.direct 0x0004)) 0x1234) [] ∧
  decode [0x83, 0xC3, 0xFF] = .ok (.addEwIbSx (.reg .bx) 0xFF) [] ∧
  decode [0xF6, 0xD3] = .ok (.notEb (.reg .bl)) [] ∧
  decode [0xD3, 0xE0] = .ok (.shlEwCl (.reg .ax)) [] ∧
  decode [0x9A, 0x00, 0x00, 0x00, 0x20] = .ok (.callAp 0x0000 0x2000) [] ∧
  decode [0xCD, 0x21] = .ok (.intIb 0x21) [] ∧
  decode [0xD9, 0x06, 0x00, 0x01] = .ok (.esc 1 0 (.mem (.direct 0x0100))) [] ∧
  decode [0xED] = .ok .inAxDx [] ∧
  decode [0xA5] = .ok .movsw [] ∧
  decode [0xF3] = .ok .repe []

/-- Every well-formed instruction, with every operand, is read back from its encoding (30_encoding.md R108 to R126). -/
def Obligations.DecodeEncode : Prop :=
  ∀ (i : Instr) (rest : List Byte), i.wf = true → decode (encode i ++ rest) = .ok i rest

/-- Whatever is decoded is a well-formed instruction, and its length is the one R127 computes from the opcode and the byte
after it (30_encoding.md R127). -/
def Obligations.DecodedLength : Prop :=
  ∀ (op : Byte) (bs : List Byte) (i : Instr) (rest : List Byte), decode (op :: bs) = .ok i rest →
    i.wf = true ∧ rowLength op (bs.headD 0) ≤ bs.length + 1 ∧ rest = (op :: bs).drop (rowLength op (bs.headD 0))

/-- Exactly the encodings R140 lists match no row, the repeat prefixes' case apart (30_encoding.md R140). -/
def Obligations.UnknownEncodings : Prop :=
  ∀ (op next b2 b3 b4 b5 : Byte) (rest : List Byte),
    let n := op.toNat
    let reg := next.toNat / 8 % 8
    let md := next.toNat / 64
    decode (op :: next :: b2 :: b3 :: b4 :: b5 :: rest) = .unknown op ↔
      n ∈ [0x0F, 0xC0, 0xC1, 0xC8, 0xC9, 0xD6, 0xF1] ∨ (0x60 ≤ n ∧ n ≤ 0x6F) ∨
      (n ∈ [0x82, 0x83] ∧ reg ∈ [1, 4, 6]) ∨
      (n = 0x8C ∧ 4 ≤ reg) ∨
      (n = 0x8E ∧ (reg = 1 ∨ 4 ≤ reg)) ∨
      (n ∈ [0x8F, 0xC6, 0xC7] ∧ reg ≠ 0) ∨
      ((0xD0 ≤ n ∧ n ≤ 0xD3) ∧ reg = 6) ∨
      (n ∈ [0xF6, 0xF7] ∧ reg = 1) ∨
      (n = 0xFE ∧ 2 ≤ reg) ∨
      (n = 0xFF ∧ (reg = 7 ∨ (reg ∈ [3, 5] ∧ md = 3))) ∨
      (n ∈ [0x8D, 0xC4, 0xC5] ∧ md = 3)

/-! ## The step and the driver -/

/-- A step with nothing on the agenda, outside a halt and a breakpoint, runs the instruction that decodes at IP: `exec` of it
in the state after its bytes, then the boundary (40_pipeline.md R167, R173, R174). -/
def Obligations.StepRunsDecoded : Prop :=
  ∀ (s : State) (i : Instr) (rest : List Byte), s.agenda = [] → s.halted = false → s.atBreakpoint = false →
    decode (s.window maxLength) = .ok i rest → i.isPrefix = false →
    step s = match exec i (s.begin.consume (maxLength - rest.length)) with
      | .next t => .next t.finish
      | .fault r => .fault r
      | .refused r => .refused r

/-- The next bytes of the instruction stream are the queue's, then memory's from CS:pc, the offset wrapping in the segment;
and reading k bytes moves IP by k and changes nothing but the queue and pc (40_pipeline.md R168, R184; 10_state.md R26,
R27). -/
def Obligations.FetchOrder : Prop :=
  ∀ (s : State) (n : Nat),
    s.window n =
      (s.queue.items ++ (List.range n).map (fun k => s.memByte (phys (s.seg .cs) (s.pc + BitVec.ofNat 16 k)))).take n ∧
    (s.consume n).ip = s.ip + BitVec.ofNat 16 n ∧
    (s.consume n).queue.items = s.queue.items.drop n ∧
    s.consume n = { s with pc := (s.consume n).pc, queue := (s.consume n).queue }

/-- Reading an instruction: a prefix byte acts by its own row and reading goes on after it with one prefix byte less allowed,
65,536 being allowed to begin with; after the last allowed one, that one is unknown; an opcode that matches no row, and after a
repeat prefix one that is no string instruction, is unknown; any other instruction is read with its bytes consumed.
advance_instruction reads so, from the state with IP_start and TF recorded, and then runs the instruction and the boundary, or
fails with UnknownOpcode and rewinds (30_encoding.md R103, R105, R140; 44_string.md R346; 40_pipeline.md R167, R182). -/
def Obligations.PrefixRead : Prop :=
  prefixLimit = 65536 ∧
  (∀ (n : Nat) (b : Byte) (s : State),
    s.readInstr 0 b = .unknown b s ∧
    (∀ op, decode (s.window maxLength) = .unknown op → s.readInstr (n + 1) b = .unknown op (s.consume (headLength op))) ∧
    (∀ i rest, decode (s.window maxLength) = .ok i rest →
      (i.isPrefix = true →
        ∃ t, exec i (s.consume 1) = .next t ∧ s.readInstr (n + 1) b = t.readInstr n s.fetchByte.1) ∧
      (i.isPrefix = false → s.ctx.rep ≠ none → asString i = none →
        s.readInstr (n + 1) b = .unknown s.fetchByte.1 (s.consume (headLength s.fetchByte.1))) ∧
      (i.isPrefix = false → s.ctx.rep = none ∨ asString i ≠ none →
        s.readInstr (n + 1) b = .instr s.fetchByte.1 i (s.consume (maxLength - rest.length))))) ∧
  (∀ s : State, s.halted = false → s.atBreakpoint = false →
    (∀ op i u, s.begin.readInstr prefixLimit 0 = .instr op i u → s.advance = match exec i u with
      | .next t => .done t.finish
      | .fault r => .fault r
      | .refused r => .refused r) ∧
    (∀ op u, s.begin.readInstr prefixLimit 0 = .unknown op u → s.advance = .failed (.unknownOpcode op) u.rewind))

/-- Each prefix row sets its part of the context and nothing else: a segment override, a repeat prefix, or, for LOCK, nothing
(30_encoding.md R104, R105; 46_processor_control.md R439, R441). -/
def Obligations.PrefixRows : Prop :=
  ∀ s : State,
    (∀ i g, asSegPrefix i = some g → ∃ t, exec i s = .next t ∧ t.ctx.ovr = some g ∧ t.ctx.rep = s.ctx.rep ∧
      t.ctx.ipStart = s.ctx.ipStart ∧ t.ctx.tfStart = s.ctx.tfStart ∧ t.ctx.entered = s.ctx.entered ∧
      Changes { ctx := true } s t) ∧
    (∀ i p, asRepPrefix i = some p → ∃ t, exec i s = .next t ∧ t.ctx.rep = some p ∧ t.ctx.ovr = s.ctx.ovr ∧
      t.ctx.ipStart = s.ctx.ipStart ∧ t.ctx.tfStart = s.ctx.tfStart ∧ t.ctx.entered = s.ctx.entered ∧
      Changes { ctx := true } s t) ∧
    (∃ t, exec .lock s = .next t ∧ Changes {} s t)

/-- UnknownOpcode is a refusal of the step, and the core is rewound: IP is back at the instruction's start, its first prefix
included, the queue is flushed, and nothing else changes but that bp_skip is cleared. So it is whenever reading comes to it: for
an opcode that matches no row after any number of prefix bytes below 65,536, for one that is no string instruction when a repeat
prefix is among them, and after 65,536 prefix bytes, with the last of them (40_pipeline.md R180, R182; 30_encoding.md R105,
R140). -/
def Obligations.UnknownRewinds : Prop :=
  prefixLimit = 65536 ∧ ∀ s : State, s.halted = false → s.atBreakpoint = false →
    let fails (op : Byte) : Prop :=
      (∃ t, s.advance = .failed (.unknownOpcode op) t ∧ LandsAt t s.ip ∧
        t = { s with pc := t.pc, queue := t.queue, tstate := t.tstate, deliveryPending := t.deliveryPending
                     bpSkip := false, ctx := Ctx.idle }) ∧
      (s.agenda = [] → step s = .refused (.unknownOpcode op))
    (∀ op u, s.begin.readInstr prefixLimit 0 = .unknown op u → fails op) ∧
    (∀ k < prefixLimit, (∀ b ∈ s.window k, b ∈ prefixBytes) →
      (∀ op, decode ((s.consume k).window maxLength) = .unknown op → fails op) ∧
      (∀ i rest, decode ((s.consume k).window maxLength) = .ok i rest → i.isPrefix = false → asString i = none →
        0xF2 ∈ s.window k ∨ 0xF3 ∈ s.window k → fails (s.consume k).fetchByte.1)) ∧
    ((∀ b ∈ s.window prefixLimit, b ∈ prefixBytes) → fails (s.consume (prefixLimit - 1)).fetchByte.1)

/-- What stops a call before decoding. In a halt, NMI, or else INTR with IF = 1, enters its handler with the saved IP
unchanged and ends the halt; with neither, the call returns Halted and changes nothing. Otherwise a breakpoint at CS:IP
returns Breakpoint and changes bp_skip alone, and the next call passes it, clears bp_skip and executes the instruction there
(40_pipeline.md R169 to R171; 60_exceptions.md R511, R512, R516, R520). -/
def Obligations.HaltAndBreakpoint : Prop :=
  ∀ s : State, Memory.wf s.mem = true →
    (s.halted = true → s.nmiLatched = true →
      ∃ t, s.advance = .done t ∧ Entered 2 s.flags s t ∧ t.nmiLatched = false ∧ t.reply = .okay) ∧
    (s.halted = true → s.nmiLatched = false → s.intr = true → s.flag .ifl = true →
      ∃ t, s.advance = .done t ∧ Entered s.intaVector s.flags s t ∧ t.intr = true ∧ t.reply = .okay) ∧
    (s.halted = true → s.nmiLatched = false → (s.intr = false ∨ s.flag .ifl = false) →
      s.advance = .done { s with reply := .halted }) ∧
    (s.halted = false → s.bpSkip = false →
      phys (s.seg .cs) (s.pc - BitVec.ofNat 16 s.queue.items.length) ∈ s.breakpoints →
      let h : State := { s with bpSkip := true, reply := .breakpoint }
      s.advance = .done h ∧ h.atBreakpoint = false ∧ h.begin.bpSkip = false ∧
      (∀ i rest t, decode (s.window maxLength) = .ok i rest → i.isPrefix = false →
        exec i (h.begin.consume (maxLength - rest.length)) = .next t → h.advance = .done t.finish))

/-- The instruction boundary recognises one event, in the order NMI, INTR with IF = 1, single step; and none, for once, when
`inhibit` is set (60_exceptions.md R511, R512, R514, R530, R531). -/
def Obligations.BoundaryOrder : Prop :=
  ∀ s : State, Memory.wf s.mem = true →
    (s.inhibit = true → s.boundary = { s with inhibit := false }) ∧
    (s.inhibit = false → s.nmiLatched = true → Entered 2 s.flags s s.boundary ∧ s.boundary.nmiLatched = false) ∧
    (s.inhibit = false → s.nmiLatched = false → s.intr = true → s.flag .ifl = true →
      Entered s.intaVector s.flags s s.boundary ∧ s.boundary.intr = true) ∧
    (s.inhibit = false → s.nmiLatched = false → (s.intr = false ∨ s.flag .ifl = false) → s.ctx.tfStart = true →
      (s.ctx.entered = false ∨ Config.trapAfterSoftwareInt = true) → Entered 1 s.flags s s.boundary) ∧
    (s.inhibit = false → s.nmiLatched = false → (s.intr = false ∨ s.flag .ifl = false) →
      (s.ctx.tfStart = false ∨ (s.ctx.entered = true ∧ Config.trapAfterSoftwareInt = false)) → s.boundary = s)

/-! ## The invariant -/

/-- The state after construction has the values R40 gives, with the default devices; and whatever the devices, and whatever
state they are given in, construction puts each floppy controller into its initial state (10_state.md R40;
70_reset_and_hazards.md R600, R602). -/
def Obligations.ResetValues : Prop :=
  (∀ a : Phys, State.reset.memByte a = 0) ∧ State.reset.latch = 0 ∧ State.reset.lastEa = 0 ∧
  State.reset.seg .cs = 0xFFFF ∧ State.reset.seg .ds = 0 ∧ State.reset.seg .ss = 0 ∧ State.reset.seg .es = 0 ∧
  State.reset.pc = 0 ∧ State.reset.ip = 0 ∧ State.reset.queue.items = [] ∧ State.reset.queue.head = 0 ∧
  State.reset.queue.tail = 0 ∧ State.reset.flags = 0xF002 ∧ State.reset.tstate = .idle ∧
  State.reset.deliveryPending = false ∧ State.reset.halted = false ∧ State.reset.nmiLatched = false ∧
  State.reset.inhibit = false ∧ State.reset.bpSkip = false ∧ State.reset.intr = false ∧ State.reset.test = true ∧
  phys (State.reset.seg .cs) State.reset.ip = 0xFFFF0 ∧
  (∃ f, State.reset.devices = [.fdc f] ∧ f.phase = .none ∧ f.active = none ∧ f.result = [] ∧ f.dor = 0 ∧ f.log = [] ∧
    msr f.phase = 0x80) ∧
  (∀ ds : List Device, (State.construct ds).devices.length = ds.length ∧
    ∀ (k : Nat) (f : Fdc), ds[k]? = some (.fdc f) → ∃ g, (State.construct ds).devices[k]? = some (.fdc g) ∧
      g.phase = .none ∧ g.active = none ∧ g.result = [] ∧ g.dor = 0 ∧ g.log = [] ∧ g.hstate = Config.fdcInit)

/-- The state after construction meets the invariant (10_state.md R40). -/
def Obligations.ResetInv : Prop := State.reset.Inv

/-- Every step keeps the invariant, whatever call it is (10_state.md R29, R32, R34; 20_memory.md R60; 40_pipeline.md R151;
60_exceptions.md R550). -/
def Obligations.StepKeepsInv : Prop :=
  ∀ s t : State, s.Inv → step s = .next t → t.Inv

/-! ## Addresses, memory and registers -/

/-- The effective address of each operand form is the 16-bit sum of its registers and its displacement, a byte displacement
sign-extended; the operand is in the segment of the override if there is one, else in SS when its base is BP and in DS
otherwise (30_encoding.md R109 to R112). -/
def Obligations.OperandAddress : Prop :=
  ∀ (s : State) (d : Disp) (o : Word) (m : MemOp),
    let n : Int := match d with
      | .none => 0
      | .d8 b => b.toInt
      | .d16 w => (w.toNat : Int)
    let sum (l : List Reg16) : Word := BitVec.ofInt 16 ((l.map (fun r => ((s.reg16 r).toNat : Int))).sum + n)
    s.ea (.base .bxSi d) = sum [.bx, .si] ∧ s.ea (.base .bxDi d) = sum [.bx, .di] ∧
    s.ea (.base .bpSi d) = sum [.bp, .si] ∧ s.ea (.base .bpDi d) = sum [.bp, .di] ∧
    s.ea (.base .si d) = sum [.si] ∧ s.ea (.base .di d) = sum [.di] ∧
    s.ea (.base .bp d) = sum [.bp] ∧ s.ea (.base .bx d) = sum [.bx] ∧ s.ea (.direct o) = o ∧
    (∀ g, s.ctx.ovr = some g → s.memSeg m = s.seg g) ∧
    (s.ctx.ovr = none →
      s.memSeg m = match m with
        | .base .bp _ | .base .bpSi _ | .base .bpDi _ => s.seg .ss
        | _ => s.seg .ds)

/-- Memory access: an address wraps at 2^20, and PA leaves it in the latch and its mirror and changes nothing else; words are
little-endian, the second byte at the next offset of the same segment, whatever the offset; a word read after a word write at
the same place is the word written; no byte outside the two changes (20_memory.md R61, R62, R70 to R73; 10_state.md R34). -/
def Obligations.MemoryAccess : Prop :=
  ∀ (s : State) (x o v : Word), Memory.wf s.mem = true →
    (phys x o).toNat = (x.toNat * 16 + o.toNat) % 2 ^ 20 ∧
    (s.pa x o).1 = phys x o ∧ Changes { last := some (phys x o) } s (s.pa x o).2 ∧
    (s.read16 x o).1 = s.memByte (phys x (o + 1)) ++ s.memByte (phys x o) ∧
    Changes { last := some (phys x (o + 1)) } s (s.read16 x o).2 ∧
    (s.write16 x o v).memByte (phys x o) = v.setWidth 8 ∧
    (s.write16 x o v).memByte (phys x (o + 1)) = (v >>> 8).setWidth 8 ∧
    ((s.write16 x o v).read16 x o).1 = v ∧
    Changes { stores := [phys x o, phys x (o + 1)], last := some (phys x (o + 1)) } s (s.write16 x o v)

/-- A byte register is half of its word register: reading, and writing one leaves the other half and every other register
(10_state.md R22). -/
def Obligations.RegisterHalves : Prop :=
  ∀ (s : State) (r : Reg8) (v : Byte),
    s.reg16 .ax = s.reg8 .ah ++ s.reg8 .al ∧ s.reg16 .cx = s.reg8 .ch ++ s.reg8 .cl ∧
    s.reg16 .dx = s.reg8 .dh ++ s.reg8 .dl ∧ s.reg16 .bx = s.reg8 .bh ++ s.reg8 .bl ∧
    (s.setReg8 r v).reg8 r = v ∧ (∀ x, x ≠ r → (s.setReg8 r v).reg8 x = s.reg8 x) ∧
    Changes { halves := [r] } s (s.setReg8 r v)

/-! ## Arithmetic and logic -/

/-- The two-operand byte instructions, in every form: the destination, the six flags, and nothing else (42_arithmetic.md
R251 to R257, 43_logic.md R300 to R302). -/
def Obligations.AluBytes : Prop :=
  ∀ (i : Instr) (op : AluOp) (dst : Rm8) (src : Src8) (s : State), asAlu8 i = some (op, dst, src) → Memory.wf s.mem = true →
    let a := s.at8 (s.loc dst)
    let b := s.src8 src
    ∃ t, exec i s = .next t ∧
      t.at8 (s.loc dst) = (if op = .cmp then a else op.value a b (s.flag .cf)) ∧
      op.Sets a b (s.flag .cf) s.draws t ∧
      Changes { halves := if op = .cmp then [] else (s.loc dst).halves
                flags := [.cf, .pf, .af, .zf, .sf, .ofl]
                stores := if op = .cmp then [] else (s.loc dst).stores8
                last := (s.loc dst).last8.or (s.lastSrc8 src)
                draws := op.drawn } s t

/-- The two-operand word instructions, in every form (42_arithmetic.md R251 to R257, 43_logic.md R300 to R302). -/
def Obligations.AluWords : Prop :=
  ∀ (i : Instr) (op : AluOp) (dst : Rm16) (src : Src16) (s : State), asAlu16 i = some (op, dst, src) →
    Memory.wf s.mem = true →
    let a := s.at16 (s.loc dst)
    let b := s.src16 src
    ∃ t, exec i s = .next t ∧
      t.at16 (s.loc dst) = (if op = .cmp then a else op.value a b (s.flag .cf)) ∧
      op.Sets a b (s.flag .cf) s.draws t ∧
      Changes { regs := if op = .cmp then [] else (s.loc dst).regs
                flags := [.cf, .pf, .af, .zf, .sf, .ofl]
                stores := if op = .cmp then [] else (s.loc dst).stores16
                last := (s.loc dst).last16.or (s.lastSrc16 src)
                draws := op.drawn } s t

/-- TEST sets the flags of AND and writes nothing else (43_logic.md R303). -/
def Obligations.TestSetsFlags : Prop :=
  (∀ (i : Instr) (dst : Rm8) (src : Src8) (s : State), asTest8 i = some (dst, src) →
    ∃ t, exec i s = .next t ∧ AluOp.Sets .and (s.at8 (s.loc dst)) (s.src8 src) (s.flag .cf) s.draws t ∧
      Changes { flags := [.cf, .pf, .af, .zf, .sf, .ofl], last := (s.loc dst).last8, draws := 1 } s t) ∧
  (∀ (i : Instr) (dst : Rm16) (src : Src16) (s : State), asTest16 i = some (dst, src) →
    ∃ t, exec i s = .next t ∧ AluOp.Sets .and (s.at16 (s.loc dst)) (s.src16 src) (s.flag .cf) s.draws t ∧
      Changes { flags := [.cf, .pf, .af, .zf, .sf, .ofl], last := (s.loc dst).last16, draws := 1 } s t)

/-- INC and DEC add and subtract 1, set the flags but CF, and leave CF (42_arithmetic.md R258, R259). -/
def Obligations.IncDecKeepCarry : Prop :=
  (∀ (i : Instr) (op : AluOp) (dst : Rm8) (s : State), asIncDec8 i = some (op, dst) → Memory.wf s.mem = true →
    let a := s.at8 (s.loc dst)
    ∃ t, exec i s = .next t ∧ t.at8 (s.loc dst) = op.value a 1 false ∧
      t.flag .ofl = op.overflows a 1 false ∧ some (t.flag .af) = op.halfCarry a 1 false ∧
      Describes t (op.value a 1 false) ∧
      Changes { halves := (s.loc dst).halves, flags := [.pf, .af, .zf, .sf, .ofl], stores := (s.loc dst).stores8
                last := (s.loc dst).last8 } s t) ∧
  (∀ (i : Instr) (op : AluOp) (dst : Rm16) (s : State), asIncDec16 i = some (op, dst) → Memory.wf s.mem = true →
    let a := s.at16 (s.loc dst)
    ∃ t, exec i s = .next t ∧ t.at16 (s.loc dst) = op.value a 1 false ∧
      t.flag .ofl = op.overflows a 1 false ∧ some (t.flag .af) = op.halfCarry a 1 false ∧
      Describes t (op.value a 1 false) ∧
      Changes { regs := (s.loc dst).regs, flags := [.pf, .af, .zf, .sf, .ofl], stores := (s.loc dst).stores16
                last := (s.loc dst).last16 } s t)

/-- NEG subtracts from 0 and sets the six flags, CF being 1 exactly when the operand was not 0; NOT complements and sets none
(42_arithmetic.md R260, 43_logic.md R304). -/
def Obligations.NegNot : Prop :=
  (∀ (e : Rm8) (s : State), Memory.wf s.mem = true →
    let a := s.at8 (s.loc e)
    (∃ t, exec (.negEb e) s = .next t ∧ t.at8 (s.loc e) = -a ∧ AluOp.Sets .sub 0 a false s.draws t ∧
      t.flag .cf = decide (a ≠ 0) ∧
      Changes { halves := (s.loc e).halves, flags := [.cf, .pf, .af, .zf, .sf, .ofl], stores := (s.loc e).stores8
                last := (s.loc e).last8 } s t) ∧
    (∃ t, exec (.notEb e) s = .next t ∧ t.at8 (s.loc e) = ~~~a ∧
      Changes { halves := (s.loc e).halves, stores := (s.loc e).stores8, last := (s.loc e).last8 } s t)) ∧
  (∀ (e : Rm16) (s : State), Memory.wf s.mem = true →
    let a := s.at16 (s.loc e)
    (∃ t, exec (.negEw e) s = .next t ∧ t.at16 (s.loc e) = -a ∧ AluOp.Sets .sub 0 a false s.draws t ∧
      t.flag .cf = decide (a ≠ 0) ∧
      Changes { regs := (s.loc e).regs, flags := [.cf, .pf, .af, .zf, .sf, .ofl], stores := (s.loc e).stores16
                last := (s.loc e).last16 } s t) ∧
    (∃ t, exec (.notEw e) s = .next t ∧ t.at16 (s.loc e) = ~~~a ∧
      Changes { regs := (s.loc e).regs, stores := (s.loc e).stores16, last := (s.loc e).last16 } s t))

/-- MUL and IMUL give the exact product, in AX or DX:AX; CF and OF say whether its high half is not zero, or for IMUL whether
it does not fit the low half; the other four flags are the next draws, in the order of the pseudocode
(42_arithmetic.md R261, R262; log 4). -/
def Obligations.Products : Prop :=
  ∀ s : State,
    (∀ e : Rm8, ∃ t, exec (.mulEb e) s = .next t ∧
      (t.reg16 .ax).toNat = (s.reg8 .al).toNat * (s.at8 (s.loc e)).toNat ∧
      t.flag .cf = decide (t.reg8 .ah ≠ 0) ∧ t.flag .ofl = decide (t.reg8 .ah ≠ 0) ∧
      Drawn t s.draws [.sf, .zf, .af, .pf] ∧
      Changes { regs := [.ax], flags := [.cf, .pf, .af, .zf, .sf, .ofl], last := (s.loc e).last8, draws := 4 } s t) ∧
    (∀ e : Rm16, ∃ t, exec (.mulEw e) s = .next t ∧
      (t.reg16 .dx).toNat * 65536 + (t.reg16 .ax).toNat = (s.reg16 .ax).toNat * (s.at16 (s.loc e)).toNat ∧
      t.flag .cf = decide (t.reg16 .dx ≠ 0) ∧ t.flag .ofl = decide (t.reg16 .dx ≠ 0) ∧
      Drawn t s.draws [.sf, .zf, .af, .pf] ∧
      Changes { regs := [.ax, .dx], flags := [.cf, .pf, .af, .zf, .sf, .ofl], last := (s.loc e).last16, draws := 4 } s t) ∧
    (∀ e : Rm8, ∃ t, exec (.imulEb e) s = .next t ∧
      (t.reg16 .ax).toInt = (s.reg8 .al).toInt * (s.at8 (s.loc e)).toInt ∧
      t.flag .cf = decide ((t.reg8 .al).toInt ≠ (t.reg16 .ax).toInt) ∧ t.flag .ofl = t.flag .cf ∧
      Drawn t s.draws [.sf, .zf, .af, .pf] ∧
      Changes { regs := [.ax], flags := [.cf, .pf, .af, .zf, .sf, .ofl], last := (s.loc e).last8, draws := 4 } s t) ∧
    (∀ e : Rm16, ∃ t, exec (.imulEw e) s = .next t ∧
      t.dxAx.toInt = (s.reg16 .ax).toInt * (s.at16 (s.loc e)).toInt ∧
      t.flag .cf = decide ((t.reg16 .ax).toInt ≠ t.dxAx.toInt) ∧ t.flag .ofl = t.flag .cf ∧
      Drawn t s.draws [.sf, .zf, .af, .pf] ∧
      Changes { regs := [.ax, .dx], flags := [.cf, .pf, .af, .zf, .sf, .ofl], last := (s.loc e).last16, draws := 4 } s t)

/-- DIV and IDIV, where the quotient fits: quotient and remainder are those of the dividend, the signed remainder having the
dividend's sign; the six flags are the next draws, in the order of the pseudocode (42_arithmetic.md R263, R264, with
IDIV_MOST_NEGATIVE_TRAPS true, log 8; log 4). -/
def Obligations.Quotients : Prop :=
  ∀ s : State,
    (∀ e : Rm8, s.at8 (s.loc e) ≠ 0 → (s.reg16 .ax).toNat < 256 * (s.at8 (s.loc e)).toNat →
      ∃ t, exec (.divEb e) s = .next t ∧
        (s.reg16 .ax).toNat = (s.at8 (s.loc e)).toNat * (t.reg8 .al).toNat + (t.reg8 .ah).toNat ∧
        (t.reg8 .ah).toNat < (s.at8 (s.loc e)).toNat ∧
        Drawn t s.draws resultFlags ∧
        Changes { regs := [.ax], flags := resultFlags, last := (s.loc e).last8, draws := 6 } s t) ∧
    (∀ e : Rm16, s.at16 (s.loc e) ≠ 0 → s.dxAx.toNat < 65536 * (s.at16 (s.loc e)).toNat →
      ∃ t, exec (.divEw e) s = .next t ∧
        s.dxAx.toNat = (s.at16 (s.loc e)).toNat * (t.reg16 .ax).toNat + (t.reg16 .dx).toNat ∧
        (t.reg16 .dx).toNat < (s.at16 (s.loc e)).toNat ∧
        Drawn t s.draws resultFlags ∧
        Changes { regs := [.ax, .dx], flags := resultFlags, last := (s.loc e).last16, draws := 6 } s t) ∧
    (∀ (e : Rm8) (q r : Int), (s.reg16 .ax).toInt = (s.at8 (s.loc e)).toInt * q + r →
      r.natAbs < (s.at8 (s.loc e)).toInt.natAbs → (0 ≤ r ∨ (s.reg16 .ax).toInt < 0) → (r ≤ 0 ∨ 0 ≤ (s.reg16 .ax).toInt) →
      -127 ≤ q → q ≤ 127 →
      ∃ t, exec (.idivEb e) s = .next t ∧ (t.reg8 .al).toInt = q ∧ (t.reg8 .ah).toInt = r ∧
        Drawn t s.draws resultFlags ∧
        Changes { regs := [.ax], flags := resultFlags, last := (s.loc e).last8, draws := 6 } s t) ∧
    (∀ (e : Rm16) (q r : Int), s.dxAx.toInt = (s.at16 (s.loc e)).toInt * q + r →
      r.natAbs < (s.at16 (s.loc e)).toInt.natAbs → (0 ≤ r ∨ s.dxAx.toInt < 0) → (r ≤ 0 ∨ 0 ≤ s.dxAx.toInt) →
      -32767 ≤ q → q ≤ 32767 →
      ∃ t, exec (.idivEw e) s = .next t ∧ (t.reg16 .ax).toInt = q ∧ (t.reg16 .dx).toInt = r ∧
        Drawn t s.draws resultFlags ∧
        Changes { regs := [.ax, .dx], flags := resultFlags, last := (s.loc e).last16, draws := 6 } s t)

/-- A divide error enters interrupt 0 with the saved IP after the instruction: on DIV by 0 or with a quotient too large, on
IDIV with no quotient from -127 (-32767) to 127 (32767), and on AAM with base 0. The destination and the six flags are draws,
numbered in the order of the pseudocode, and FLAGS as drawn is what is pushed (42_arithmetic.md R263, R264, R269;
60_exceptions.md R500; for IDIV, log 8; log 4). -/
def Obligations.DivideErrors : Prop :=
  ∀ s : State, Memory.wf s.mem = true →
    let drawn (f : Word) (t : State) : Prop :=
      (∀ k, (∀ g ∈ resultFlags, g.bit ≠ k) → f.getLsbD k = s.flags.getLsbD k) ∧
      (∀ g ∈ resultFlags, t.flag g = f.getLsbD g.bit)
    let byte (t : State) : Prop := (∃ f, drawn f t ∧ Entered 0 f s t) ∧
      t.reg16 .ax = Config.freeWord s.draws ∧ Drawn t (s.draws + 1) resultFlags ∧
      Changes { regs := [.ax, .sp], segs := [.cs], flags := .ifl :: .tf :: resultFlags, stores := s.frameBytes
                last := some (vectorEnd 0), draws := 7, transfer := true, halted := true, ctx := true } s t
    let word (t : State) : Prop := (∃ f, drawn f t ∧ Entered 0 f s t) ∧
      t.reg16 .ax = Config.freeWord s.draws ∧ t.reg16 .dx = Config.freeWord (s.draws + 1) ∧
      Drawn t (s.draws + 2) resultFlags ∧
      Changes { regs := [.ax, .dx, .sp], segs := [.cs], flags := .ifl :: .tf :: resultFlags, stores := s.frameBytes
                last := some (vectorEnd 0), draws := 8, transfer := true, halted := true, ctx := true } s t
    (∀ e : Rm8, s.at8 (s.loc e) = 0 ∨ 256 * (s.at8 (s.loc e)).toNat ≤ (s.reg16 .ax).toNat →
      ∃ t, exec (.divEb e) s = .next t ∧ byte t) ∧
    (∀ e : Rm16, s.at16 (s.loc e) = 0 ∨ 65536 * (s.at16 (s.loc e)).toNat ≤ s.dxAx.toNat →
      ∃ t, exec (.divEw e) s = .next t ∧ word t) ∧
    (∀ e : Rm8, s.at8 (s.loc e) = 0 ∨ 128 * (s.at8 (s.loc e)).toInt.natAbs ≤ (s.reg16 .ax).toInt.natAbs →
      ∃ t, exec (.idivEb e) s = .next t ∧ byte t) ∧
    (∀ e : Rm16, s.at16 (s.loc e) = 0 ∨ 32768 * (s.at16 (s.loc e)).toInt.natAbs ≤ s.dxAx.toInt.natAbs →
      ∃ t, exec (.idivEw e) s = .next t ∧ word t) ∧
    (∃ t, exec (.aamIb 0) s = .next t ∧ byte t)

/-- DAA and DAS adjust AL by 6 and by 60 hexadecimal, each under its own condition, and set AF and CF, OF being a draw; AAA
and AAS adjust AL and AH separately and keep AL's low digit, AF and CF telling whether they adjusted and the other four flags
being draws, in the order of the pseudocode (42_arithmetic.md R265 to R268; log 4). -/
def Obligations.DecimalAdjust : Prop :=
  ∀ s : State,
    let a := (s.reg8 .al).toNat
    let h := (s.reg8 .ah).toNat
    let low := 9 < a % 16 ∨ s.flag .af = true
    let high := 0x99 < a ∨ s.flag .cf = true
    let six : List Flag := [.cf, .pf, .af, .zf, .sf, .ofl]
    (∃ t, exec .daa s = .next t ∧
      (low → high → (t.reg8 .al).toNat = (a + 0x66) % 256) ∧ (low → ¬high → (t.reg8 .al).toNat = (a + 6) % 256) ∧
      (¬low → high → (t.reg8 .al).toNat = (a + 0x60) % 256) ∧ (¬low → ¬high → (t.reg8 .al).toNat = a) ∧
      (t.flag .af = true ↔ low) ∧ (t.flag .cf = true ↔ high) ∧ Describes t (t.reg8 .al) ∧
      Drawn t s.draws [.ofl] ∧ Changes { halves := [.al], flags := six, draws := 1 } s t) ∧
    (∃ t, exec .das s = .next t ∧
      (low → high → (t.reg8 .al).toNat = (a + 256 - 0x66) % 256) ∧
      (low → ¬high → (t.reg8 .al).toNat = (a + 256 - 6) % 256) ∧
      (¬low → high → (t.reg8 .al).toNat = (a + 256 - 0x60) % 256) ∧ (¬low → ¬high → (t.reg8 .al).toNat = a) ∧
      (t.flag .af = true ↔ low) ∧ (t.flag .cf = true ↔ high ∨ (low ∧ a < 6)) ∧ Describes t (t.reg8 .al) ∧
      Drawn t s.draws [.ofl] ∧ Changes { halves := [.al], flags := six, draws := 1 } s t) ∧
    (∃ t, exec .aaa s = .next t ∧
      (low → (t.reg8 .al).toNat = (a + 6) % 16 ∧ (t.reg8 .ah).toNat = (h + 1) % 256) ∧
      (¬low → (t.reg8 .al).toNat = a % 16 ∧ (t.reg8 .ah).toNat = h) ∧
      (t.flag .af = true ↔ low) ∧ (t.flag .cf = true ↔ low) ∧
      Drawn t s.draws [.ofl, .sf, .zf, .pf] ∧ Changes { regs := [.ax], flags := six, draws := 4 } s t) ∧
    (∃ t, exec .aas s = .next t ∧
      (low → (t.reg8 .al).toNat = (a + 10) % 16 ∧ (t.reg8 .ah).toNat = (h + 255) % 256) ∧
      (¬low → (t.reg8 .al).toNat = a % 16 ∧ (t.reg8 .ah).toNat = h) ∧
      (t.flag .af = true ↔ low) ∧ (t.flag .cf = true ↔ low) ∧
      Drawn t s.draws [.ofl, .sf, .zf, .pf] ∧ Changes { regs := [.ax], flags := six, draws := 4 } s t)

/-- AAM splits AL by the base in the instruction (not 0), and AAD puts AL and AH together; SF, ZF and PF tell of AL, the
other three flags are the next draws, in the order of the pseudocode (42_arithmetic.md R269, R270; log 4). -/
def Obligations.AsciiMultiplyDivide : Prop :=
  ∀ (s : State) (i : Byte),
    (i ≠ 0 → ∃ t, exec (.aamIb i) s = .next t ∧
      (s.reg8 .al).toNat = i.toNat * (t.reg8 .ah).toNat + (t.reg8 .al).toNat ∧ (t.reg8 .al).toNat < i.toNat ∧
      Describes t (t.reg8 .al) ∧
      Drawn t s.draws [.ofl, .af, .cf] ∧
      Changes { regs := [.ax], flags := [.cf, .pf, .af, .zf, .sf, .ofl], draws := 3 } s t) ∧
    (∃ t, exec (.aadIb i) s = .next t ∧
      (t.reg16 .ax).toNat = ((s.reg8 .al).toNat + (s.reg8 .ah).toNat * i.toNat) % 256 ∧ Describes t (t.reg8 .al) ∧
      Drawn t s.draws [.ofl, .af, .cf] ∧
      Changes { regs := [.ax], flags := [.cf, .pf, .af, .zf, .sf, .ofl], draws := 3 } s t)

/-- CBW and CWD keep the signed value in twice the width (42_arithmetic.md R271, R272). -/
def Obligations.SignExtension : Prop :=
  ∀ s : State,
    (∃ t, exec .cbw s = .next t ∧ (t.reg16 .ax).toInt = (s.reg8 .al).toInt ∧ Changes { regs := [.ax] } s t) ∧
    (∃ t, exec .cwd s = .next t ∧ t.dxAx.toInt = (s.reg16 .ax).toInt ∧ Changes { regs := [.dx] } s t)

/-- The byte shifts and rotates by 1 and by CL: the closed form of the result and of CF, OF for a count of 1 and a draw
otherwise, SF, ZF and PF of a shift, and a count of 0 that only reads; the draw of OF comes before that of AF
(43_logic.md R305 to R312; log 4). -/
def Obligations.ShiftBytes : Prop :=
  ∀ (i : Instr) (op : ShiftOp) (e : Rm8) (byCl : Bool) (s : State), asShift8 i = some (op, e, byCl) →
    Memory.wf s.mem = true →
    let x := s.at8 (s.loc e)
    let n := s.shiftCount byCl
    ∃ t, exec i s = .next t ∧
      (n = 0 → Changes { last := (s.loc e).last8 } s t) ∧
      (n ≠ 0 → t.at8 (s.loc e) = op.value n x (s.flag .cf) ∧ t.flag .cf = op.carry n x (s.flag .cf) ∧
        (n = 1 → t.flag .ofl = op.overflow x (op.value n x (s.flag .cf))) ∧
        (n ≠ 1 → Drawn t s.draws [.ofl]) ∧
        (op.isShift = true → Describes t (op.value n x (s.flag .cf)) ∧
          Drawn t (s.draws + if n = 1 then 0 else 1) [.af]) ∧
        Changes { halves := (s.loc e).halves
                  flags := if op.isShift then [.cf, .pf, .af, .zf, .sf, .ofl] else [.cf, .ofl]
                  stores := (s.loc e).stores8
                  last := (s.loc e).last8
                  draws := (if n = 1 then 0 else 1) + (if op.isShift then 1 else 0) } s t)

/-- The word shifts and rotates by 1 and by CL, as the byte ones (43_logic.md R305 to R312; log 4). -/
def Obligations.ShiftWords : Prop :=
  ∀ (i : Instr) (op : ShiftOp) (e : Rm16) (byCl : Bool) (s : State), asShift16 i = some (op, e, byCl) →
    Memory.wf s.mem = true →
    let x := s.at16 (s.loc e)
    let n := s.shiftCount byCl
    ∃ t, exec i s = .next t ∧
      (n = 0 → Changes { last := (s.loc e).last16 } s t) ∧
      (n ≠ 0 → t.at16 (s.loc e) = op.value n x (s.flag .cf) ∧ t.flag .cf = op.carry n x (s.flag .cf) ∧
        (n = 1 → t.flag .ofl = op.overflow x (op.value n x (s.flag .cf))) ∧
        (n ≠ 1 → Drawn t s.draws [.ofl]) ∧
        (op.isShift = true → Describes t (op.value n x (s.flag .cf)) ∧
          Drawn t (s.draws + if n = 1 then 0 else 1) [.af]) ∧
        Changes { regs := (s.loc e).regs
                  flags := if op.isShift then [.cf, .pf, .af, .zf, .sf, .ofl] else [.cf, .ofl]
                  stores := (s.loc e).stores16
                  last := (s.loc e).last16
                  draws := (if n = 1 then 0 else 1) + (if op.isShift then 1 else 0) } s t)

/-! ## Data transfer -/

/-- MOV of a byte or a word, in every form that does not load a segment register, copies the source's value and writes no
flag (41_data_transfer.md R201 to R207). -/
def Obligations.Moves : Prop :=
  (∀ (i : Instr) (dst : Rm8) (src : Src8) (s : State), asMove8 i = some (dst, src) → Memory.wf s.mem = true →
    ∃ t, exec i s = .next t ∧ t.at8 (s.loc dst) = s.src8 src ∧
      Changes { halves := (s.loc dst).halves, stores := (s.loc dst).stores8
                last := (s.loc dst).last8.or (s.lastSrc8 src) } s t) ∧
  (∀ (i : Instr) (dst : Rm16) (src : Src16) (s : State), asMove16 i = some (dst, src) → Memory.wf s.mem = true →
    ∃ t, exec i s = .next t ∧ t.at16 (s.loc dst) = s.src16 src ∧
      Changes { regs := (s.loc dst).regs, stores := (s.loc dst).stores16
                last := (s.loc dst).last16.or (s.lastSrc16 src) } s t)

/-- MOV and POP into a segment register load it and set `inhibit` (41_data_transfer.md R208, R216). -/
def Obligations.SegmentLoads : Prop :=
  (∀ (i : Instr) (g : Seg) (e : Rm16) (s : State), asLoadSeg i = some (g, e) →
    ∃ t, exec i s = .next t ∧ t.seg g = s.at16 (s.loc e) ∧ t.inhibit = true ∧
      Changes { segs := [g], last := (s.loc e).last16, inhibit := true } s t) ∧
  (∀ (i : Instr) (g : Seg) (s : State), asPopSeg i = some g →
    ∃ t, exec i s = .next t ∧ t.seg g = s.wordAt (s.seg .ss) (s.reg16 .sp) ∧ t.reg16 .sp = s.reg16 .sp + 2 ∧
      t.inhibit = true ∧
      Changes { regs := [.sp], segs := [g], last := some (phys (s.seg .ss) (s.reg16 .sp + 1)), inhibit := true } s t)

/-- PUSH lowers SP by 2 and stores the operand at the new SS:SP, low byte first; PUSH SP stores the lowered SP; PUSHF stores
FLAGS (41_data_transfer.md R210, R212 to R214, R227; for SP = 0001 R209 has the bytes the other way round, log 27). -/
def Obligations.Pushes : Prop :=
  ∀ s : State, Memory.wf s.mem = true →
    let slot := [phys (s.seg .ss) (s.reg16 .sp - 2), phys (s.seg .ss) (s.reg16 .sp - 1)]
    let only (t : State) : Prop :=
      Changes { regs := [.sp], stores := slot, last := some (phys (s.seg .ss) (s.reg16 .sp - 1)) } s t
    (∀ (i : Instr) (src : Src16), asPush i = some src →
      ∃ t, exec i s = .next t ∧ t.reg16 .sp = s.reg16 .sp - 2 ∧
        t.wordAt (s.seg .ss) (s.reg16 .sp - 2) =
          (if src = .place (.reg .sp) then s.reg16 .sp - 2 else s.src16 src) ∧ only t) ∧
    (∃ t, exec .pushf s = .next t ∧ t.reg16 .sp = s.reg16 .sp - 2 ∧
      t.wordAt (s.seg .ss) (s.reg16 .sp - 2) = s.flags ∧ only t)

/-- POP takes the word at SS:SP to its place, which is found before SP moves, and raises SP by 2, except that POP SP leaves
the word in SP; POPF takes it to FLAGS, whose reserved bits keep their fixed values (41_data_transfer.md R211, R215, R217,
R228; 10_state.md R29). -/
def Obligations.Pops : Prop :=
  ∀ s : State, Memory.wf s.mem = true →
    let w := s.wordAt (s.seg .ss) (s.reg16 .sp)
    let top := some (phys (s.seg .ss) (s.reg16 .sp + 1))
    (∀ (i : Instr) (e : Rm16), asPop i = some e →
      ∃ t, exec i s = .next t ∧ t.at16 (s.loc e) = w ∧ (e ≠ .reg .sp → t.reg16 .sp = s.reg16 .sp + 2) ∧
        Changes { regs := .sp :: (s.loc e).regs, stores := (s.loc e).stores16, last := (s.loc e).last16.or top } s t) ∧
    (∃ t, exec .popf s = .next t ∧ t.flags = (w &&& 0x0FD5) ||| 0xF002 ∧ t.reg16 .sp = s.reg16 .sp + 2 ∧
      Changes { regs := [.sp], allFlags := true, last := top } s t)

/-- XCHG swaps its two places, and NOP does nothing (41_data_transfer.md R218 to R220). -/
def Obligations.Exchanges : Prop :=
  ∀ s : State, Memory.wf s.mem = true →
    (∀ (e : Rm8) (g : Reg8), ∃ t, exec (.xchgEbGb e g) s = .next t ∧
      t.at8 (s.loc e) = s.reg8 g ∧ t.reg8 g = s.at8 (s.loc e) ∧
      Changes { halves := g :: (s.loc e).halves, stores := (s.loc e).stores8, last := (s.loc e).last8 } s t) ∧
    (∀ (e : Rm16) (g : Reg16), ∃ t, exec (.xchgEwGw e g) s = .next t ∧
      t.at16 (s.loc e) = s.reg16 g ∧ t.reg16 g = s.at16 (s.loc e) ∧
      Changes { regs := g :: (s.loc e).regs, stores := (s.loc e).stores16, last := (s.loc e).last16 } s t) ∧
    (∀ r : Reg16, ∃ t, exec (.xchgAxR16 r) s = .next t ∧ t.reg16 .ax = s.reg16 r ∧ t.reg16 r = s.reg16 .ax ∧
      Changes { regs := [.ax, r] } s t) ∧
    (∃ t, exec .nop s = .next t ∧ Changes {} s t)

/-- XLAT reads the table byte at DS (or the override) : BX + AL; LEA loads the effective address and accesses no memory; LDS
and LES load a far pointer, the offset first (41_data_transfer.md R221 to R224). -/
def Obligations.TableAndPointerLoads : Prop :=
  ∀ s : State,
    (let o := BitVec.ofNat 16 ((s.reg16 .bx).toNat + (s.reg8 .al).toNat)
     let x := s.seg (s.ctx.ovr.getD .ds)
     ∃ t, exec .xlat s = .next t ∧ t.reg8 .al = s.memByte (phys x o) ∧
      Changes { halves := [.al], last := some (phys x o) } s t) ∧
    (∀ (g : Reg16) (m : MemOp), ∃ t, exec (.leaGwM g m) s = .next t ∧ t.reg16 g = s.ea m ∧
      Changes { regs := [g] } s t) ∧
    (∀ (g : Reg16) (m : MemOp), ∃ t, exec (.ldsGwMp g m) s = .next t ∧
      t.reg16 g = s.wordAt (s.memSeg m) (s.ea m) ∧ t.seg .ds = s.wordAt (s.memSeg m) (s.ea m + 2) ∧
      Changes { regs := [g], segs := [.ds], last := some (phys (s.memSeg m) (s.ea m + 3)) } s t) ∧
    (∀ (g : Reg16) (m : MemOp), ∃ t, exec (.lesGwMp g m) s = .next t ∧
      t.reg16 g = s.wordAt (s.memSeg m) (s.ea m) ∧ t.seg .es = s.wordAt (s.memSeg m) (s.ea m + 2) ∧
      Changes { regs := [g], segs := [.es], last := some (phys (s.memSeg m) (s.ea m + 3)) } s t)

/-! ## Strings -/

/-- MOVS, STOS and LODS without a repeat prefix move one element and step the index registers by DF (44_string.md R340, R341,
R344, R345). -/
def Obligations.StringMoves : Prop :=
  ∀ s : State, Memory.wf s.mem = true → s.ctx.rep = none →
    let x := s.seg (s.ctx.ovr.getD .ds)
    let es := s.seg .es
    let si := s.reg16 .si
    let di := s.reg16 .di
    (∃ t, exec .movsb s = .next t ∧ t.memByte (phys es di) = s.memByte (phys x si) ∧
      t.reg16 .si = s.stepped .si 1 ∧ t.reg16 .di = s.stepped .di 1 ∧
      Changes { regs := [.si, .di], stores := [phys es di], last := some (phys es di) } s t) ∧
    (∃ t, exec .movsw s = .next t ∧ t.wordAt es di = s.wordAt x si ∧
      t.reg16 .si = s.stepped .si 2 ∧ t.reg16 .di = s.stepped .di 2 ∧
      Changes { regs := [.si, .di], stores := [phys es di, phys es (di + 1)], last := some (phys es (di + 1)) } s t) ∧
    (∃ t, exec .stosb s = .next t ∧ t.memByte (phys es di) = s.reg8 .al ∧ t.reg16 .di = s.stepped .di 1 ∧
      Changes { regs := [.di], stores := [phys es di], last := some (phys es di) } s t) ∧
    (∃ t, exec .stosw s = .next t ∧ t.wordAt es di = s.reg16 .ax ∧ t.reg16 .di = s.stepped .di 2 ∧
      Changes { regs := [.di], stores := [phys es di, phys es (di + 1)], last := some (phys es (di + 1)) } s t) ∧
    (∃ t, exec .lodsb s = .next t ∧ t.reg8 .al = s.memByte (phys x si) ∧ t.reg16 .si = s.stepped .si 1 ∧
      Changes { regs := [.si], halves := [.al], last := some (phys x si) } s t) ∧
    (∃ t, exec .lodsw s = .next t ∧ t.reg16 .ax = s.wordAt x si ∧ t.reg16 .si = s.stepped .si 2 ∧
      Changes { regs := [.si, .ax], last := some (phys x (si + 1)) } s t)

/-- CMPS and SCAS without a repeat prefix set the flags of source minus destination, and of the accumulator minus destination,
and step the index registers (44_string.md R340, R342, R343). -/
def Obligations.StringCompares : Prop :=
  ∀ s : State, s.ctx.rep = none →
    let x := s.seg (s.ctx.ovr.getD .ds)
    let es := s.seg .es
    let si := s.reg16 .si
    let di := s.reg16 .di
    let six : List Flag := [.cf, .pf, .af, .zf, .sf, .ofl]
    (∃ t, exec .cmpsb s = .next t ∧
      AluOp.Sets .cmp (s.memByte (phys x si)) (s.memByte (phys es di)) false s.draws t ∧
      t.reg16 .si = s.stepped .si 1 ∧ t.reg16 .di = s.stepped .di 1 ∧
      Changes { regs := [.si, .di], flags := six, last := some (phys es di) } s t) ∧
    (∃ t, exec .cmpsw s = .next t ∧ AluOp.Sets .cmp (s.wordAt x si) (s.wordAt es di) false s.draws t ∧
      t.reg16 .si = s.stepped .si 2 ∧ t.reg16 .di = s.stepped .di 2 ∧
      Changes { regs := [.si, .di], flags := six, last := some (phys es (di + 1)) } s t) ∧
    (∃ t, exec .scasb s = .next t ∧ AluOp.Sets .cmp (s.reg8 .al) (s.memByte (phys es di)) false s.draws t ∧
      t.reg16 .di = s.stepped .di 1 ∧ Changes { regs := [.di], flags := six, last := some (phys es di) } s t) ∧
    (∃ t, exec .scasw s = .next t ∧ AluOp.Sets .cmp (s.reg16 .ax) (s.wordAt es di) false s.draws t ∧
      t.reg16 .di = s.stepped .di 2 ∧ Changes { regs := [.di], flags := six, last := some (phys es (di + 1)) } s t)

/-- A repeated string instruction: nothing when CX is 0; else one element, CX less 1, and then the end (CMPS and SCAS by ZF;
all by CX = 0), a suspension at the last prefix when an interrupt is pending, or the same again (44_string.md R346 to
R348). -/
def Obligations.RepeatUnrolls : Prop :=
  ∀ (i : Instr) (k : Nat) (compares : Bool) (p : Rep) (s : State), asString i = some (k, compares) → s.ctx.rep = some p →
    (s.reg16 .cx = 0 → exec i s = .next s) ∧
    (s.reg16 .cx ≠ 0 → ∃ u, exec i { s with ctx := { s.ctx with rep := none } } = .next u ∧
      let v := { u with ctx := s.ctx, regs := u.regs.set .cx (s.reg16 .cx - 1) }
      let ends := (compares = true ∧ v.flag .zf = decide (p = .repne)) ∨ v.reg16 .cx = 0
      let pending := s.nmiLatched = true ∨ (s.intr = true ∧ v.flag .ifl = true) ∨
        (Config.repTrapPerIteration = true ∧ s.ctx.tfStart = true)
      (ends → exec i s = .next v) ∧ (¬ends → pending → exec i s = .next (v.jump (v.ip - 2))) ∧
      (¬ends → ¬pending → exec i s = exec i v))

/-- REP STOSB going up, with no interrupt pending, fills CX bytes from ES:DI with AL and changes no other byte (44_string.md
R345, R347). -/
def Obligations.RepStosFills : Prop :=
  ∀ (s : State) (p : Rep), Memory.wf s.mem = true → s.ctx.rep = some p → s.flag .df = false → s.nmiLatched = false →
    (s.intr = false ∨ s.flag .ifl = false) → s.ctx.tfStart = false →
    ∃ t, exec .stosb s = .next t ∧ t.reg16 .cx = 0 ∧ t.reg16 .di = s.reg16 .di + s.reg16 .cx ∧
      (∀ k < (s.reg16 .cx).toNat, t.memByte (phys (s.seg .es) (s.reg16 .di + BitVec.ofNat 16 k)) = s.reg8 .al) ∧
      (∀ a, (∀ k < (s.reg16 .cx).toNat, a ≠ phys (s.seg .es) (s.reg16 .di + BitVec.ofNat 16 k)) →
        t.memByte a = s.memByte a) ∧
      (∀ r, r ≠ .cx → r ≠ .di → t.reg16 r = s.reg16 r) ∧ t.flags = s.flags

/-! ## Control transfer -/

/-- The jumps: near by a displacement from the next instruction, near through an operand, far to a segment and offset; each
flushes the queue (45_control.md R370 to R375; 40_pipeline.md R165). -/
def Obligations.Jumps : Prop :=
  ∀ s : State,
    (∀ d : Byte, ∃ t, exec (.jmpJb d) s = .next t ∧ LandsAt t (BitVec.ofInt 16 (s.ip.toNat + d.toInt)) ∧
      Changes { transfer := true } s t) ∧
    (∀ d : Word, ∃ t, exec (.jmpJw d) s = .next t ∧ LandsAt t (BitVec.ofInt 16 (s.ip.toNat + d.toInt)) ∧
      Changes { transfer := true } s t) ∧
    (∀ e : Rm16, ∃ t, exec (.jmpEw e) s = .next t ∧ LandsAt t (s.at16 (s.loc e)) ∧
      Changes { transfer := true, last := (s.loc e).last16 } s t) ∧
    (∀ o x : Word, ∃ t, exec (.jmpAp o x) s = .next t ∧ LandsAt t o ∧ t.seg .cs = x ∧
      Changes { transfer := true, segs := [.cs] } s t) ∧
    (∀ m : MemOp, ∃ t, exec (.jmpMp m) s = .next t ∧ LandsAt t (s.wordAt (s.memSeg m) (s.ea m)) ∧
      t.seg .cs = s.wordAt (s.memSeg m) (s.ea m + 2) ∧
      Changes { transfer := true, segs := [.cs], last := some (phys (s.memSeg m) (s.ea m + 3)) } s t)

/-- The calls push the offset after the instruction, the far ones after CS, and go to the target, read before anything is
pushed (45_control.md R376 to R379). -/
def Obligations.Calls : Prop :=
  ∀ s : State, Memory.wf s.mem = true →
    let ss := s.seg .ss
    let sp := s.reg16 .sp
    let near (t : State) : Prop := t.reg16 .sp = sp - 2 ∧ t.wordAt ss (sp - 2) = s.ip ∧
      Changes { regs := [.sp], stores := [phys ss (sp - 2), phys ss (sp - 1)], last := some (phys ss (sp - 1))
                transfer := true } s t
    let distant (t : State) : Prop := t.reg16 .sp = sp - 4 ∧ t.wordAt ss (sp - 2) = s.seg .cs ∧ t.wordAt ss (sp - 4) = s.ip ∧
      Changes { regs := [.sp], segs := [.cs]
                stores := [phys ss (sp - 4), phys ss (sp - 3), phys ss (sp - 2), phys ss (sp - 1)]
                last := some (phys ss (sp - 3)), transfer := true } s t
    (∀ d : Word, ∃ t, exec (.callJw d) s = .next t ∧ LandsAt t (s.ip + d) ∧ near t) ∧
    (∀ e : Rm16, ∃ t, exec (.callEw e) s = .next t ∧ LandsAt t (s.at16 (s.loc e)) ∧ near t) ∧
    (∀ o x : Word, ∃ t, exec (.callAp o x) s = .next t ∧ LandsAt t o ∧ t.seg .cs = x ∧ distant t) ∧
    (∀ m : MemOp, ∃ t, exec (.callMp m) s = .next t ∧ LandsAt t (s.wordAt (s.memSeg m) (s.ea m)) ∧
      t.seg .cs = s.wordAt (s.memSeg m) (s.ea m + 2) ∧ distant t)

/-- The returns pop the offset, the far ones then CS, and release the bytes their immediate says (45_control.md R380 to
R383). -/
def Obligations.Returns : Prop :=
  ∀ (s : State) (k : Word),
    let ss := s.seg .ss
    let sp := s.reg16 .sp
    let near (t : State) (n : Word) : Prop := LandsAt t (s.wordAt ss sp) ∧ t.reg16 .sp = sp + 2 + n ∧
      Changes { regs := [.sp], last := some (phys ss (sp + 1)), transfer := true } s t
    let distant (t : State) (n : Word) : Prop := LandsAt t (s.wordAt ss sp) ∧ t.seg .cs = s.wordAt ss (sp + 2) ∧
      t.reg16 .sp = sp + 4 + n ∧
      Changes { regs := [.sp], segs := [.cs], last := some (phys ss (sp + 3)), transfer := true } s t
    (∃ t, exec .ret s = .next t ∧ near t 0) ∧ (∃ t, exec (.retIw k) s = .next t ∧ near t k) ∧
    (∃ t, exec .retf s = .next t ∧ distant t 0) ∧ (∃ t, exec (.retfIw k) s = .next t ∧ distant t k)

/-- A conditional jump goes to IP + displacement when its condition on the flags holds, and changes nothing otherwise, not
even the queue (45_control.md R385 to R401). -/
def Obligations.ConditionalJumps : Prop :=
  ∀ (i : Instr) (cond : Bool → Bool → Bool → Bool → Bool → Prop) (d : Byte) (s : State), asJcc i = some (cond, d) →
    (cond (s.flag .cf) (s.flag .pf) (s.flag .zf) (s.flag .sf) (s.flag .ofl) →
      ∃ t, exec i s = .next t ∧ LandsAt t (BitVec.ofInt 16 (s.ip.toNat + d.toInt)) ∧ Changes { transfer := true } s t) ∧
    (¬cond (s.flag .cf) (s.flag .pf) (s.flag .zf) (s.flag .sf) (s.flag .ofl) → exec i s = .next s)

/-- After CMP, the conditions of the conditional jumps compare: B, BE, A and AE as unsigned, L, LE, G and GE as signed, E
and NE for equality
(42_arithmetic.md R257; 45_control.md R385). -/
def Obligations.CompareThenJump : Prop :=
  (∀ (s : State) (b : Word), ∃ t, exec (.cmpAxIw b) s = .next t ∧
    let a := s.reg16 .ax
    (t.cond .b = true ↔ a.toNat < b.toNat) ∧ (t.cond .be = true ↔ a.toNat ≤ b.toNat) ∧
    (t.cond .a = true ↔ b.toNat < a.toNat) ∧ (t.cond .ae = true ↔ b.toNat ≤ a.toNat) ∧
    (t.cond .l = true ↔ a.toInt < b.toInt) ∧ (t.cond .le = true ↔ a.toInt ≤ b.toInt) ∧
    (t.cond .g = true ↔ b.toInt < a.toInt) ∧ (t.cond .ge = true ↔ b.toInt ≤ a.toInt) ∧
    (t.cond .e = true ↔ a = b) ∧ (t.cond .ne = true ↔ a ≠ b)) ∧
  (∀ (s : State) (b : Byte), ∃ t, exec (.cmpAlIb b) s = .next t ∧
    let a := s.reg8 .al
    (t.cond .b = true ↔ a.toNat < b.toNat) ∧ (t.cond .be = true ↔ a.toNat ≤ b.toNat) ∧
    (t.cond .a = true ↔ b.toNat < a.toNat) ∧ (t.cond .ae = true ↔ b.toNat ≤ a.toNat) ∧
    (t.cond .l = true ↔ a.toInt < b.toInt) ∧ (t.cond .le = true ↔ a.toInt ≤ b.toInt) ∧
    (t.cond .g = true ↔ b.toInt < a.toInt) ∧ (t.cond .ge = true ↔ b.toInt ≤ a.toInt) ∧
    (t.cond .e = true ↔ a = b) ∧ (t.cond .ne = true ↔ a ≠ b))

/-- LOOP, LOOPE and LOOPNE lower CX by 1 and jump while it is not 0 (and ZF is as asked); JCXZ jumps when CX is 0 and leaves
it; none writes a flag (45_control.md R402 to R405). -/
def Obligations.Loops : Prop :=
  ∀ (s : State) (d : Byte),
    let goes (t : State) : Prop := LandsAt t (BitVec.ofInt 16 (s.ip.toNat + d.toInt))
    let cx : Word := BitVec.ofInt 16 ((s.reg16 .cx).toNat - 1)
    let ends (i : Instr) (taken : Prop) : Prop := ∃ t, exec i s = .next t ∧ t.reg16 .cx = cx ∧
      (taken → goes t ∧ Changes { regs := [.cx], transfer := true } s t) ∧ (¬taken → Changes { regs := [.cx] } s t)
    ends (.loopJb d) (s.reg16 .cx ≠ 1) ∧
    ends (.loopeJb d) (s.reg16 .cx ≠ 1 ∧ s.flag .zf = true) ∧
    ends (.loopneJb d) (s.reg16 .cx ≠ 1 ∧ s.flag .zf = false) ∧
    (s.reg16 .cx = 0 → ∃ t, exec (.jcxzJb d) s = .next t ∧ goes t ∧ Changes { transfer := true } s t) ∧
    (s.reg16 .cx ≠ 0 → exec (.jcxzJb d) s = .next s)

/-- INT n, INT 3 and INTO with OF = 1 enter their interrupts; INTO with OF = 0 does nothing (45_control.md R406 to R408;
60_exceptions.md R500, R520). -/
def Obligations.SoftwareInterrupts : Prop :=
  ∀ s : State, Memory.wf s.mem = true →
    let enters (i : Instr) (n : Byte) : Prop := ∃ t, exec i s = .next t ∧ Entered n s.flags s t ∧
      t.ctx = { s.ctx with entered := true } ∧
      Changes { regs := [.sp], segs := [.cs], flags := [.ifl, .tf], stores := s.frameBytes, last := some (vectorEnd n)
                transfer := true, halted := true, ctx := true } s t
    (∀ n : Byte, enters (.intIb n) n) ∧ enters .int3 3 ∧ (s.flag .ofl = true → enters .into 4) ∧
    (s.flag .ofl = false → exec .into s = .next s)

/-- IRET pops IP, CS and FLAGS, the reserved bits of FLAGS keeping their fixed values (45_control.md R409; 10_state.md
R29). -/
def Obligations.InterruptReturn : Prop :=
  ∀ s : State,
    let ss := s.seg .ss
    let sp := s.reg16 .sp
    ∃ t, exec .iret s = .next t ∧ LandsAt t (s.wordAt ss sp) ∧ t.seg .cs = s.wordAt ss (sp + 2) ∧
      t.flags = (s.wordAt ss (sp + 4) &&& 0x0FD5) ||| 0xF002 ∧ t.reg16 .sp = sp + 6 ∧
      Changes { regs := [.sp], segs := [.cs], allFlags := true, last := some (phys ss (sp + 5)), transfer := true } s t

/-- IRET undoes an interrupt's entry: FLAGS, CS, IP, SP and every other register are as they were (60_exceptions.md R520,
R521; 45_control.md R406, R409). -/
def Obligations.InterruptRoundTrip : Prop :=
  ∀ (s : State) (n : Byte), Memory.wf s.mem = true → flagsFixed s.flags →
    ∃ t u, exec (.intIb n) s = .next t ∧ exec .iret t = .next u ∧ u.flags = s.flags ∧ LandsAt u s.ip ∧
      (∀ r, u.reg16 r = s.reg16 r) ∧ (∀ g, u.seg g = s.seg g) ∧
      (∀ a, a ∉ s.frameBytes → u.memByte a = s.memByte a)

/-! ## Processor control -/

/-- CLC, STC, CMC, CLD, STD, CLI and STI write their one flag, and STI sets `inhibit` when STI_SHADOW is true; LAHF copies the
low byte of FLAGS to AH; SAHF writes SF, ZF, AF, PF and CF from AH's bits 7, 6, 4, 2 and 0 and changes no other bit
(46_processor_control.md R430 to R435, R440; 41_data_transfer.md R225, R226; 10_state.md R29). -/
def Obligations.FlagInstructions : Prop :=
  ∀ s : State,
    let sets (i : Instr) (f : Flag) (b : Bool) : Prop :=
      ∃ t, exec i s = .next t ∧ t.flag f = b ∧ Changes { flags := [f] } s t
    sets .clc .cf false ∧ sets .stc .cf true ∧ sets .cmc .cf (!s.flag .cf) ∧ sets .cld .df false ∧ sets .std .df true ∧
    sets .cli .ifl false ∧
    (∃ t, exec .sti s = .next t ∧ t.flag .ifl = true ∧ (Config.stiShadow = true → t.inhibit = true) ∧
      (Config.stiShadow = false → t.inhibit = s.inhibit) ∧ Changes { flags := [.ifl], inhibit := true } s t) ∧
    (∃ t, exec .lahf s = .next t ∧ t.reg8 .ah = s.flags.setWidth 8 ∧ Changes { halves := [.ah] } s t) ∧
    (flagsFixed s.flags → ∃ t, exec .sahf s = .next t ∧
      t.flag .sf = (s.reg8 .ah).getLsbD 7 ∧ t.flag .zf = (s.reg8 .ah).getLsbD 6 ∧ t.flag .af = (s.reg8 .ah).getLsbD 4 ∧
      t.flag .pf = (s.reg8 .ah).getLsbD 2 ∧ t.flag .cf = (s.reg8 .ah).getLsbD 0 ∧
      Changes { flags := [.sf, .zf, .af, .pf, .cf] } s t)

/-- HLT sets `halted`; WAIT does nothing with TEST asserted and otherwise goes back to the instruction's start; ESC moves the
latch to its memory operand's address and does nothing else (46_processor_control.md R436 to R438). -/
def Obligations.HaltWaitEscape : Prop :=
  ∀ s : State,
    (∃ t, exec .hlt s = .next t ∧ t.halted = true ∧ Changes { halted := true } s t) ∧
    (s.test = true → exec .wait s = .next s) ∧
    (s.test = false → ∃ t, exec .wait s = .next t ∧ LandsAt t s.ctx.ipStart ∧ Changes { transfer := true } s t) ∧
    (∀ x y r, exec (.esc x y (.reg r)) s = .next s) ∧
    (∀ x y m, ∃ t, exec (.esc x y (.mem m)) s = .next t ∧
      Changes { last := some (phys (s.memSeg m) (s.ea m)) } s t)

/-! ## Ports and the floppy controller -/

/-- IN and OUT access the port of their form, a word as two bytes at the port and the next, low byte first; they change the
accumulator or the devices, and no memory byte, flag or latch (47_io.md R450, R454, R457 to R460). -/
def Obligations.PortInstructions : Prop :=
  ∀ s : State,
    let readsByte (i : Instr) (p : Word) : Prop := ∃ t, exec i s = .next t ∧ t.reg8 .al = (s.ioReadByte p).1 ∧
      t.devices = (s.ioReadByte p).2.devices ∧
      Changes { halves := [.al], devices := true, draws := (s.ioReadByte p).2.draws - s.draws } s t
    let readsWord (i : Instr) (p : Word) : Prop := ∃ t, exec i s = .next t ∧ t.reg8 .al = (s.ioReadByte p).1 ∧
      t.reg8 .ah = ((s.ioReadByte p).2.ioReadByte (p + 1)).1 ∧
      t.devices = ((s.ioReadByte p).2.ioReadByte (p + 1)).2.devices ∧
      Changes { regs := [.ax], devices := true,
                draws := ((s.ioReadByte p).2.ioReadByte (p + 1)).2.draws - s.draws } s t
    let writesByte (i : Instr) (p : Word) : Prop := ∃ t, exec i s = .next t ∧
      t.devices = (s.ioWriteByte p (s.reg8 .al)).devices ∧ Changes { devices := true } s t
    let writesWord (i : Instr) (p : Word) : Prop := ∃ t, exec i s = .next t ∧
      t.devices = ((s.ioWriteByte p (s.reg8 .al)).ioWriteByte (p + 1) (s.reg8 .ah)).devices ∧
      Changes { devices := true } s t
    (∀ n : Byte, readsByte (.inAlIb n) (n.setWidth 16) ∧ readsWord (.inAxIb n) (n.setWidth 16) ∧
      writesByte (.outIbAl n) (n.setWidth 16) ∧ writesWord (.outIbAx n) (n.setWidth 16)) ∧
    readsByte .inAlDx (s.reg16 .dx) ∧ readsWord .inAxDx (s.reg16 .dx) ∧
    writesByte .outDxAl (s.reg16 .dx) ∧ writesWord .outDxAx (s.reg16 .dx)

/-- A port access reaches the device that owns the port, and no other; what the device drives is what is read, and where it
drives nothing the read is a draw. Where no device owns the port a read is a draw and a write nothing (47_io.md R451 to R453).
That the first of several owners is the one is the model's choice, log 10: R451 calls such a list ill-formed. -/
def Obligations.PortDispatch : Prop :=
  ∀ (s : State) (p : Word) (b : Byte),
    ((∀ d ∈ s.devices, p ∉ d.ports) →
      s.ioWriteByte p b = s ∧ (s.ioReadByte p).2 = { s with draws := s.draws + 1 } ∧
      (s.ioReadByte p).1 = (Config.freeWord s.draws).setWidth 8) ∧
    (∀ (l r : List Device) (d : Device), s.devices = l ++ d :: r → (∀ e ∈ l, p ∉ e.ports) → p ∈ d.ports →
      (s.ioWriteByte p b).devices = l ++ d.writeByte p b :: r ∧
      (s.ioReadByte p).2.devices = l ++ (d.readByte p).2 :: r ∧
      (∀ v, (d.readByte p).1 = some v → (s.ioReadByte p).1 = v ∧ (s.ioReadByte p).2.draws = s.draws) ∧
      ((d.readByte p).1 = none → (s.ioReadByte p).1 = (Config.freeWord s.draws).setWidth 8 ∧
        (s.ioReadByte p).2.draws = s.draws + 1) ∧
      s.ioWriteByte p b = { s with devices := (s.ioWriteByte p b).devices } ∧
      (s.ioReadByte p).2 = { s with devices := (s.ioReadByte p).2.devices, draws := (s.ioReadByte p).2.draws })

/-- The controller's protocol through its data register: a table command selected with its parameter count, its parameters
one by one, and the bound operation run once at the next access, by a read or a write (60_exceptions.md R556 to R559,
R562). -/
def Obligations.FdcProtocol : Prop :=
  ∀ (f : Fdc) (v : Byte) (params : List Byte) (x : Byte) (cmd : FdcCommand) (count : Nat),
    f.Inv → f.phase = .none ∨ f.phase = .result → fdcCommand (v.toNat % 32) = some (cmd, count) → params.length = count →
    let g := params.foldl (fun h b => h.writeByte 0x3F5 b) (f.writeByte 0x3F5 v)
    let out := Config.fdcHandler f.hstate v params
    g.phase = .execution ∧ g.active = some ⟨v, cmd, 0, params⟩ ∧ g.result = [] ∧ g.hstate = f.hstate ∧ g.dor = f.dor ∧
    (∀ k < count, ((params.take k).foldl (fun h b => h.writeByte 0x3F5 b) (f.writeByte 0x3F5 v)).phase = .command) ∧
    (g.writeByte 0x3F5 x).phase = .result ∧ (g.writeByte 0x3F5 x).result = out.2 ∧ (g.writeByte 0x3F5 x).hstate = out.1 ∧
    (g.readByte 0x3F5).1 = none ∧ (g.readByte 0x3F5).2 = g.writeByte 0x3F5 x

/-- The other accesses of the controller: MSR by phase, results popped first to last, an invalid command logged and nothing
else, reads that change nothing, a DOR write that stores and perhaps resets, a write to MSR ignored; exactly fifteen codes
have a command, with the parameter counts listed, and exactly four sector sizes are accepted (60_exceptions.md R551, R553,
R555, R556, R558, R560, R561, R563). -/
def Obligations.FdcRegisters : Prop :=
  ∀ (f : Fdc) (v : Byte),
    f.readByte 0x3F4 = (some (match f.phase with
      | .none => 0x80
      | .command => 0x90
      | .execution => 0xB0
      | .result => 0xD0), f) ∧
    f.writeByte 0x3F4 v = f ∧ f.readByte 0x3F2 = (none, f) ∧
    (f.phase = .result → ∀ b rest, f.result = b :: rest → f.readByte 0x3F5 = (some b, { f with result := rest })) ∧
    (f.phase = .result → f.result = [] → f.readByte 0x3F5 = (none, f)) ∧
    (f.phase = .none ∨ f.phase = .command → f.readByte 0x3F5 = (none, f)) ∧
    (f.phase = .none → fdcCommand (v.toNat % 32) = none → f.writeByte 0x3F5 v = { f with log := f.log ++ [v] }) ∧
    (f.writeByte 0x3F2 v).dor = v ∧ (f.writeByte 0x3F2 v).log = f.log ∧
    (v.getLsbD 2 = Config.dorResetLevel → (f.writeByte 0x3F2 v).phase = .none ∧ (f.writeByte 0x3F2 v).active = none ∧
      (f.writeByte 0x3F2 v).result = []) ∧
    (v.getLsbD 2 ≠ Config.dorResetLevel → f.writeByte 0x3F2 v = { f with dor := v }) ∧ (∀ n, f.advance n = f) ∧
    (∀ c : Nat, (fdcCommand c).map (fun e => e.2) =
      if c ∈ [0x02, 0x05, 0x06, 0x09, 0x0C, 0x11, 0x19, 0x1D] then some 8 else if c = 0x03 then some 2
      else if c ∈ [0x04, 0x07, 0x0A, 0x0F] then some 1 else if c = 0x08 then some 0 else if c = 0x0D then some 5
      else none) ∧
    sectorSize v = if v.toNat ≤ 3 then some (128 * 2 ^ v.toNat) else none

/-! ## The queue and the cycle engine -/

/-- The queue is first in, first out and bounded: push fails exactly when it is full, pop gives the oldest, drain_part takes
min(k, size), extend is all or nothing, try_extend takes what fits, peek and back read the ends; head and tail move modulo
the capacity, and slot (head + i) mod N holds element i (40_pipeline.md R150 to R158). -/
def Obligations.QueueLaws : Prop :=
  ∀ (n : Nat) (q : BoundedQueue Byte n) (v : Byte) (vs : List Byte) (k : Nat), q.wf = true →
    (q.items.length = n → q.push v = none) ∧
    (q.items.length < n → ∃ r, q.push v = some r ∧ r.items = q.items ++ [v] ∧ r.head = q.head ∧ r.wf = true ∧
      r.tail = (q.tail + 1) % n ∧ q.slot q.tail = none ∧ r.slot q.tail = some v) ∧
    (q.items = [] → q.pop = none ∧ q.peek = none ∧ q.back = none) ∧
    (∀ b rest, q.items = b :: rest → q.peek = some b ∧ q.slot q.head = some b ∧
      ∃ r, q.pop = some (b, r) ∧ r.items = rest ∧ r.head = (q.head + 1) % n ∧ r.tail = q.tail ∧ r.wf = true ∧
        r.slot q.head = none) ∧
    (∀ b rest, q.items = rest ++ [b] → q.back = some b) ∧
    (q.drainPart k).1 = q.items.take k ∧ (q.drainPart k).2.items = q.items.drop k ∧ (q.drainPart k).2.wf = true ∧
    (q.drainPart k).2.head = (q.head + min k q.items.length) % n ∧ (q.drainPart k).2.tail = q.tail ∧
    q.drain.1 = q.items ∧ q.drain.2.items = [] ∧ q.drain.2.head = q.tail ∧ q.drain.2.tail = q.tail ∧
    (n < q.items.length + vs.length → q.extend vs = none) ∧
    (q.items.length + vs.length ≤ n → ∃ r, q.extend vs = some r ∧ r.items = q.items ++ vs ∧ r.head = q.head ∧
      r.tail = (q.tail + vs.length) % n ∧ r.wf = true) ∧
    (q.tryExtend vs).2.items = q.items ++ vs.take (n - q.items.length) ∧
    (q.tryExtend vs).1 = min vs.length (n - q.items.length) ∧ (q.tryExtend vs).2.head = q.head ∧
    (q.tryExtend vs).2.tail = (q.tail + (q.tryExtend vs).1) % n ∧ (q.tryExtend vs).2.wf = true ∧
    (∀ j < q.items.length, q.slot ((q.head + j) % n) = q.items[j]?)

/-- step_cycle goes through the T-states one at a time; at T4 the byte at CS:pc is delivered if the queue has room and pc
advances, else the engine stalls in T4 and retries; no register, flag or memory byte changes, and every device is advanced by
1 (40_pipeline.md R162 to R164, R166). -/
def Obligations.CycleEngine : Prop :=
  ∀ s : State,
    let t := s.stepCycle
    let delivers := (s.queue.items.length ≠ 4 → t.queue.items = s.queue.items ++ [s.memByte (phys (s.seg .cs) s.pc)] ∧
        t.pc = s.pc + 1 ∧ t.deliveryPending = false) ∧
      (s.queue.items.length = 4 → t.queue = s.queue ∧ t.pc = s.pc ∧ t.deliveryPending = true)
    let rests := t.queue = s.queue ∧ t.pc = s.pc ∧ t.deliveryPending = s.deliveryPending
    (s.tstate = .idle → t.tstate = .t0 ∧ rests) ∧ (s.tstate = .t0 → t.tstate = .t1 ∧ rests) ∧
    (s.tstate = .t1 → t.tstate = .t2 ∧ rests) ∧ (s.tstate = .t2 → t.tstate = .t3 ∧ rests) ∧
    (s.tstate = .t3 → t.tstate = .t4 ∧ delivers) ∧
    (s.tstate = .t4 → s.deliveryPending = true → t.tstate = .t4 ∧ delivers) ∧
    (s.tstate = .t4 → s.deliveryPending = false → t.tstate = .idle ∧ rests) ∧
    t.regs = s.regs ∧ t.segs = s.segs ∧ t.flags = s.flags ∧ t.mem = s.mem ∧ t.latch = s.latch ∧ t.lastEa = s.lastEa ∧
    t.halted = s.halted ∧ t.nmiLatched = s.nmiLatched ∧ t.inhibit = s.inhibit ∧ t.bpSkip = s.bpSkip ∧
    t.devices = s.devices.map (fun d => d.advance 1) ∧ (∀ f, (Device.fdc f).advance 1 = .fdc f)

/-! ## The host interface -/

/-- The host's register calls: a read returns the register and changes nothing but the reply; a write of a general register, of
a data segment register or of FLAGS changes it alone; a write of IP or CS flushes the queue, CS keeping IP; FLAGS keeps its
reserved bits (70_reset_and_hazards.md R610, R611; 10_state.md R29). -/
def Obligations.HostRegisters : Prop :=
  ∀ (s : State) (rest : List HostCall) (r : Reg16) (v : Word),
    let at' (c : HostCall) : State := { s with agenda := c :: rest }
    let back (w : Word) : State := { s with agenda := rest, reply := .word w }
    let done : State := { s with agenda := rest, reply := .nothing }
    step (at' (.readReg (.gpr r))) = .next (back (s.reg16 r)) ∧
    (∀ g, step (at' (.readReg (.seg g))) = .next (back (s.seg g))) ∧
    step (at' (.readReg .flags)) = .next (back s.flags) ∧
    step (at' (.readReg .ip)) = .next (back (s.pc - BitVec.ofNat 16 s.queue.items.length)) ∧
    (∃ t, step (at' (.writeGpr r v)) = .next t ∧ t.reg16 r = v ∧ (∀ x, x ≠ r → t.reg16 x = s.reg16 x) ∧
      t = { done with regs := t.regs }) ∧
    (∀ g, g ≠ .cs → ∃ t, step (at' (.writeSeg g v)) = .next t ∧ t.seg g = v ∧ (∀ x, x ≠ g → t.seg x = s.seg x) ∧
      t = { done with segs := t.segs }) ∧
    (∃ t, step (at' (.writeSeg .cs v)) = .next t ∧ t.seg .cs = v ∧ (∀ x, x ≠ .cs → t.seg x = s.seg x) ∧ LandsAt t s.ip ∧
      t = { done with segs := t.segs, pc := t.pc, queue := t.queue, tstate := t.tstate
                      deliveryPending := t.deliveryPending }) ∧
    (∃ t, step (at' (.writeIp v)) = .next t ∧ LandsAt t v ∧
      t = { done with pc := t.pc, queue := t.queue, tstate := t.tstate, deliveryPending := t.deliveryPending }) ∧
    step (at' (.writeFlags v)) = .next { done with flags := (v &&& 0x0FD5) ||| 0xF002 }

/-- The host's memory calls: in range they read and write the bytes, lowest first, without the latch; with any byte at or
above 2^20 they return OutOfBounds and do nothing (20_memory.md R64 to R67). -/
def Obligations.HostMemory : Prop :=
  ∀ (s : State) (rest : List HostCall) (a : DWord) (n : Nat) (bs : List Byte), Memory.wf s.mem = true → n ≠ 0 → bs ≠ [] →
    let at' (c : HostCall) : State := { s with agenda := c :: rest }
    let back (r : Reply) : State := { s with agenda := rest, reply := r }
    (a.toNat + n ≤ 2 ^ 20 → step (at' (.readBytes a n)) =
      .next (back (.bytes ((List.range n).map (fun k => s.memByte (BitVec.ofNat 20 (a.toNat + k))))))) ∧
    (2 ^ 20 < a.toNat + n → step (at' (.readBytes a n)) = .next (back .outOfBounds)) ∧
    (a.toNat + bs.length ≤ 2 ^ 20 → ∃ t, step (at' (.writeBytes a bs)) = .next t ∧ t.latch = s.latch ∧
      t.queue = s.queue ∧ t.regs = s.regs ∧ t.segs = s.segs ∧ t.flags = s.flags ∧
      (∀ k : Nat, k < bs.length → some (t.memByte (BitVec.ofNat 20 (a.toNat + k))) = bs[k]?) ∧
      (∀ b : Phys, b.toNat < a.toNat ∨ a.toNat + bs.length ≤ b.toNat → t.memByte b = s.memByte b)) ∧
    (2 ^ 20 < a.toNat + bs.length → step (at' (.writeBytes a bs)) = .next (back .outOfBounds)) ∧
    (a.toNat < 2 ^ 20 → step (at' (.fetchByte a)) = .next (back (.bytes [s.memByte (a.setWidth 20)]))) ∧
    (a.toNat + 1 < 2 ^ 20 → step (at' (.fetchWord a)) =
      .next (back (.word (join16 (s.memByte (a.setWidth 20 + 1)) (s.memByte (a.setWidth 20)))))) ∧
    (2 ^ 20 ≤ a.toNat → step (at' (.fetchByte a)) = .next (back .outOfBounds)) ∧
    (2 ^ 20 ≤ a.toNat + 1 → step (at' (.fetchWord a)) = .next (back .outOfBounds))

/-- The host's reset gives the values R40 and R601 list, keeps memory, the breakpoints and the controllers' logs, and returns
their protocol to None; the general registers are the next eight draws, in the order of their numbers (10_state.md R40;
70_reset_and_hazards.md R601; logs 4 and 26). -/
def Obligations.HostReset : Prop :=
  ∀ (s : State) (rest : List HostCall), ∃ t, step { s with agenda := .reset :: rest } = .next t ∧
    t.segs = ⟨0, 0xFFFF, 0, 0⟩ ∧ t.pc = 0 ∧ t.ip = 0 ∧ t.queue.items = [] ∧ t.flags = 0xF002 ∧ t.tstate = .idle ∧
    t.deliveryPending = false ∧ t.halted = false ∧ t.nmiLatched = false ∧ t.inhibit = false ∧ t.bpSkip = false ∧
    t.latch = 0 ∧ t.lastEa = 0 ∧ t.mem = s.mem ∧ t.breakpoints = s.breakpoints ∧ t.draws = s.draws + 8 ∧
    t.regs = ⟨Config.freeWord s.draws, Config.freeWord (s.draws + 1), Config.freeWord (s.draws + 2),
      Config.freeWord (s.draws + 3), Config.freeWord (s.draws + 4), Config.freeWord (s.draws + 5),
      Config.freeWord (s.draws + 6), Config.freeWord (s.draws + 7)⟩ ∧
    t.devices.length = s.devices.length ∧
    (∀ (k : Nat) (f : Fdc), s.devices[k]? = some (.fdc f) → ∃ g, t.devices[k]? = some (.fdc g) ∧ g.phase = .none ∧
      g.active = none ∧ g.result = [] ∧ g.dor = 0 ∧ g.log = f.log ∧ g.hstate = f.hstate)

end
end

