-- ==== Sys2Proof/Laws/State.lean ====
section
/-! SUPPORT. What each update of State does to each field, one rule a field, for the simplifier. -/

set_option Elab.async false

namespace Sys2Proof.Machine

variable (s : State)

/-! ### setReg16 -/

@[simp] theorem State.setReg16_regs (r : Reg16) (v : Word) : (s.setReg16 r v).regs = s.regs.set r v := rfl
@[simp] theorem State.setReg16_segs (r : Reg16) (v : Word) : (s.setReg16 r v).segs = s.segs := rfl
@[simp] theorem State.setReg16_pc (r : Reg16) (v : Word) : (s.setReg16 r v).pc = s.pc := rfl
@[simp] theorem State.setReg16_flags (r : Reg16) (v : Word) : (s.setReg16 r v).flags = s.flags := rfl
@[simp] theorem State.setReg16_queue (r : Reg16) (v : Word) : (s.setReg16 r v).queue = s.queue := rfl
@[simp] theorem State.setReg16_tstate (r : Reg16) (v : Word) : (s.setReg16 r v).tstate = s.tstate := rfl
@[simp] theorem State.setReg16_deliveryPending (r : Reg16) (v : Word) : (s.setReg16 r v).deliveryPending = s.deliveryPending := rfl
@[simp] theorem State.setReg16_mem (r : Reg16) (v : Word) : (s.setReg16 r v).mem = s.mem := rfl
@[simp] theorem State.setReg16_latch (r : Reg16) (v : Word) : (s.setReg16 r v).latch = s.latch := rfl
@[simp] theorem State.setReg16_lastEa (r : Reg16) (v : Word) : (s.setReg16 r v).lastEa = s.lastEa := rfl
@[simp] theorem State.setReg16_halted (r : Reg16) (v : Word) : (s.setReg16 r v).halted = s.halted := rfl
@[simp] theorem State.setReg16_nmiLatched (r : Reg16) (v : Word) : (s.setReg16 r v).nmiLatched = s.nmiLatched := rfl
@[simp] theorem State.setReg16_inhibit (r : Reg16) (v : Word) : (s.setReg16 r v).inhibit = s.inhibit := rfl
@[simp] theorem State.setReg16_bpSkip (r : Reg16) (v : Word) : (s.setReg16 r v).bpSkip = s.bpSkip := rfl
@[simp] theorem State.setReg16_devices (r : Reg16) (v : Word) : (s.setReg16 r v).devices = s.devices := rfl
@[simp] theorem State.setReg16_intr (r : Reg16) (v : Word) : (s.setReg16 r v).intr = s.intr := rfl
@[simp] theorem State.setReg16_intaVector (r : Reg16) (v : Word) : (s.setReg16 r v).intaVector = s.intaVector := rfl
@[simp] theorem State.setReg16_test (r : Reg16) (v : Word) : (s.setReg16 r v).test = s.test := rfl
@[simp] theorem State.setReg16_breakpoints (r : Reg16) (v : Word) : (s.setReg16 r v).breakpoints = s.breakpoints := rfl
@[simp] theorem State.setReg16_ctx (r : Reg16) (v : Word) : (s.setReg16 r v).ctx = s.ctx := rfl
@[simp] theorem State.setReg16_draws (r : Reg16) (v : Word) : (s.setReg16 r v).draws = s.draws := rfl
@[simp] theorem State.setReg16_agenda (r : Reg16) (v : Word) : (s.setReg16 r v).agenda = s.agenda := rfl
@[simp] theorem State.setReg16_reply (r : Reg16) (v : Word) : (s.setReg16 r v).reply = s.reply := rfl

/-! ### setReg8 -/

@[simp] theorem State.setReg8_segs (r : Reg8) (v : Byte) : (s.setReg8 r v).segs = s.segs := by simp [State.setReg8]
@[simp] theorem State.setReg8_pc (r : Reg8) (v : Byte) : (s.setReg8 r v).pc = s.pc := by simp [State.setReg8]
@[simp] theorem State.setReg8_flags (r : Reg8) (v : Byte) : (s.setReg8 r v).flags = s.flags := by simp [State.setReg8]
@[simp] theorem State.setReg8_queue (r : Reg8) (v : Byte) : (s.setReg8 r v).queue = s.queue := by simp [State.setReg8]
@[simp] theorem State.setReg8_tstate (r : Reg8) (v : Byte) : (s.setReg8 r v).tstate = s.tstate := by simp [State.setReg8]
@[simp] theorem State.setReg8_deliveryPending (r : Reg8) (v : Byte) : (s.setReg8 r v).deliveryPending = s.deliveryPending := by simp [State.setReg8]
@[simp] theorem State.setReg8_mem (r : Reg8) (v : Byte) : (s.setReg8 r v).mem = s.mem := by simp [State.setReg8]
@[simp] theorem State.setReg8_latch (r : Reg8) (v : Byte) : (s.setReg8 r v).latch = s.latch := by simp [State.setReg8]
@[simp] theorem State.setReg8_lastEa (r : Reg8) (v : Byte) : (s.setReg8 r v).lastEa = s.lastEa := by simp [State.setReg8]
@[simp] theorem State.setReg8_halted (r : Reg8) (v : Byte) : (s.setReg8 r v).halted = s.halted := by simp [State.setReg8]
@[simp] theorem State.setReg8_nmiLatched (r : Reg8) (v : Byte) : (s.setReg8 r v).nmiLatched = s.nmiLatched := by simp [State.setReg8]
@[simp] theorem State.setReg8_inhibit (r : Reg8) (v : Byte) : (s.setReg8 r v).inhibit = s.inhibit := by simp [State.setReg8]
@[simp] theorem State.setReg8_bpSkip (r : Reg8) (v : Byte) : (s.setReg8 r v).bpSkip = s.bpSkip := by simp [State.setReg8]
@[simp] theorem State.setReg8_devices (r : Reg8) (v : Byte) : (s.setReg8 r v).devices = s.devices := by simp [State.setReg8]
@[simp] theorem State.setReg8_intr (r : Reg8) (v : Byte) : (s.setReg8 r v).intr = s.intr := by simp [State.setReg8]
@[simp] theorem State.setReg8_intaVector (r : Reg8) (v : Byte) : (s.setReg8 r v).intaVector = s.intaVector := by simp [State.setReg8]
@[simp] theorem State.setReg8_test (r : Reg8) (v : Byte) : (s.setReg8 r v).test = s.test := by simp [State.setReg8]
@[simp] theorem State.setReg8_breakpoints (r : Reg8) (v : Byte) : (s.setReg8 r v).breakpoints = s.breakpoints := by simp [State.setReg8]
@[simp] theorem State.setReg8_ctx (r : Reg8) (v : Byte) : (s.setReg8 r v).ctx = s.ctx := by simp [State.setReg8]
@[simp] theorem State.setReg8_draws (r : Reg8) (v : Byte) : (s.setReg8 r v).draws = s.draws := by simp [State.setReg8]
@[simp] theorem State.setReg8_agenda (r : Reg8) (v : Byte) : (s.setReg8 r v).agenda = s.agenda := by simp [State.setReg8]
@[simp] theorem State.setReg8_reply (r : Reg8) (v : Byte) : (s.setReg8 r v).reply = s.reply := by simp [State.setReg8]

/-! ### setSeg -/

@[simp] theorem State.setSeg_regs (g : Seg) (v : Word) : (s.setSeg g v).regs = s.regs := by cases g <;> rfl
@[simp] theorem State.setSeg_pc (g : Seg) (v : Word) : (s.setSeg g v).pc = s.pc := by cases g <;> rfl
@[simp] theorem State.setSeg_flags (g : Seg) (v : Word) : (s.setSeg g v).flags = s.flags := by cases g <;> rfl
@[simp] theorem State.setSeg_queue (g : Seg) (v : Word) : (s.setSeg g v).queue = s.queue := by cases g <;> rfl
@[simp] theorem State.setSeg_tstate (g : Seg) (v : Word) : (s.setSeg g v).tstate = s.tstate := by cases g <;> rfl
@[simp] theorem State.setSeg_deliveryPending (g : Seg) (v : Word) : (s.setSeg g v).deliveryPending = s.deliveryPending := by cases g <;> rfl
@[simp] theorem State.setSeg_mem (g : Seg) (v : Word) : (s.setSeg g v).mem = s.mem := by cases g <;> rfl
@[simp] theorem State.setSeg_latch (g : Seg) (v : Word) : (s.setSeg g v).latch = s.latch := by cases g <;> rfl
@[simp] theorem State.setSeg_lastEa (g : Seg) (v : Word) : (s.setSeg g v).lastEa = s.lastEa := by cases g <;> rfl
@[simp] theorem State.setSeg_halted (g : Seg) (v : Word) : (s.setSeg g v).halted = s.halted := by cases g <;> rfl
@[simp] theorem State.setSeg_nmiLatched (g : Seg) (v : Word) : (s.setSeg g v).nmiLatched = s.nmiLatched := by cases g <;> rfl
@[simp] theorem State.setSeg_inhibit (g : Seg) (v : Word) : (s.setSeg g v).inhibit = s.inhibit := by cases g <;> rfl
@[simp] theorem State.setSeg_bpSkip (g : Seg) (v : Word) : (s.setSeg g v).bpSkip = s.bpSkip := by cases g <;> rfl
@[simp] theorem State.setSeg_devices (g : Seg) (v : Word) : (s.setSeg g v).devices = s.devices := by cases g <;> rfl
@[simp] theorem State.setSeg_intr (g : Seg) (v : Word) : (s.setSeg g v).intr = s.intr := by cases g <;> rfl
@[simp] theorem State.setSeg_intaVector (g : Seg) (v : Word) : (s.setSeg g v).intaVector = s.intaVector := by cases g <;> rfl
@[simp] theorem State.setSeg_test (g : Seg) (v : Word) : (s.setSeg g v).test = s.test := by cases g <;> rfl
@[simp] theorem State.setSeg_breakpoints (g : Seg) (v : Word) : (s.setSeg g v).breakpoints = s.breakpoints := by cases g <;> rfl
@[simp] theorem State.setSeg_ctx (g : Seg) (v : Word) : (s.setSeg g v).ctx = s.ctx := by cases g <;> rfl
@[simp] theorem State.setSeg_draws (g : Seg) (v : Word) : (s.setSeg g v).draws = s.draws := by cases g <;> rfl
@[simp] theorem State.setSeg_agenda (g : Seg) (v : Word) : (s.setSeg g v).agenda = s.agenda := by cases g <;> rfl
@[simp] theorem State.setSeg_reply (g : Seg) (v : Word) : (s.setSeg g v).reply = s.reply := by cases g <;> rfl

/-! ### setFlag -/

@[simp] theorem State.setFlag_regs (f : Flag) (b : Bool) : (s.setFlag f b).regs = s.regs := rfl
@[simp] theorem State.setFlag_segs (f : Flag) (b : Bool) : (s.setFlag f b).segs = s.segs := rfl
@[simp] theorem State.setFlag_pc (f : Flag) (b : Bool) : (s.setFlag f b).pc = s.pc := rfl
@[simp] theorem State.setFlag_queue (f : Flag) (b : Bool) : (s.setFlag f b).queue = s.queue := rfl
@[simp] theorem State.setFlag_tstate (f : Flag) (b : Bool) : (s.setFlag f b).tstate = s.tstate := rfl
@[simp] theorem State.setFlag_deliveryPending (f : Flag) (b : Bool) : (s.setFlag f b).deliveryPending = s.deliveryPending := rfl
@[simp] theorem State.setFlag_mem (f : Flag) (b : Bool) : (s.setFlag f b).mem = s.mem := rfl
@[simp] theorem State.setFlag_latch (f : Flag) (b : Bool) : (s.setFlag f b).latch = s.latch := rfl
@[simp] theorem State.setFlag_lastEa (f : Flag) (b : Bool) : (s.setFlag f b).lastEa = s.lastEa := rfl
@[simp] theorem State.setFlag_halted (f : Flag) (b : Bool) : (s.setFlag f b).halted = s.halted := rfl
@[simp] theorem State.setFlag_nmiLatched (f : Flag) (b : Bool) : (s.setFlag f b).nmiLatched = s.nmiLatched := rfl
@[simp] theorem State.setFlag_inhibit (f : Flag) (b : Bool) : (s.setFlag f b).inhibit = s.inhibit := rfl
@[simp] theorem State.setFlag_bpSkip (f : Flag) (b : Bool) : (s.setFlag f b).bpSkip = s.bpSkip := rfl
@[simp] theorem State.setFlag_devices (f : Flag) (b : Bool) : (s.setFlag f b).devices = s.devices := rfl
@[simp] theorem State.setFlag_intr (f : Flag) (b : Bool) : (s.setFlag f b).intr = s.intr := rfl
@[simp] theorem State.setFlag_intaVector (f : Flag) (b : Bool) : (s.setFlag f b).intaVector = s.intaVector := rfl
@[simp] theorem State.setFlag_test (f : Flag) (b : Bool) : (s.setFlag f b).test = s.test := rfl
@[simp] theorem State.setFlag_breakpoints (f : Flag) (b : Bool) : (s.setFlag f b).breakpoints = s.breakpoints := rfl
@[simp] theorem State.setFlag_ctx (f : Flag) (b : Bool) : (s.setFlag f b).ctx = s.ctx := rfl
@[simp] theorem State.setFlag_draws (f : Flag) (b : Bool) : (s.setFlag f b).draws = s.draws := rfl
@[simp] theorem State.setFlag_agenda (f : Flag) (b : Bool) : (s.setFlag f b).agenda = s.agenda := rfl
@[simp] theorem State.setFlag_reply (f : Flag) (b : Bool) : (s.setFlag f b).reply = s.reply := rfl

/-! ### writeFlags -/

@[simp] theorem State.writeFlags_regs (v : Word) : (s.writeFlags v).regs = s.regs := rfl
@[simp] theorem State.writeFlags_segs (v : Word) : (s.writeFlags v).segs = s.segs := rfl
@[simp] theorem State.writeFlags_pc (v : Word) : (s.writeFlags v).pc = s.pc := rfl
@[simp] theorem State.writeFlags_flags (v : Word) : (s.writeFlags v).flags = fixFlags v := rfl
@[simp] theorem State.writeFlags_queue (v : Word) : (s.writeFlags v).queue = s.queue := rfl
@[simp] theorem State.writeFlags_tstate (v : Word) : (s.writeFlags v).tstate = s.tstate := rfl
@[simp] theorem State.writeFlags_deliveryPending (v : Word) : (s.writeFlags v).deliveryPending = s.deliveryPending := rfl
@[simp] theorem State.writeFlags_mem (v : Word) : (s.writeFlags v).mem = s.mem := rfl
@[simp] theorem State.writeFlags_latch (v : Word) : (s.writeFlags v).latch = s.latch := rfl
@[simp] theorem State.writeFlags_lastEa (v : Word) : (s.writeFlags v).lastEa = s.lastEa := rfl
@[simp] theorem State.writeFlags_halted (v : Word) : (s.writeFlags v).halted = s.halted := rfl
@[simp] theorem State.writeFlags_nmiLatched (v : Word) : (s.writeFlags v).nmiLatched = s.nmiLatched := rfl
@[simp] theorem State.writeFlags_inhibit (v : Word) : (s.writeFlags v).inhibit = s.inhibit := rfl
@[simp] theorem State.writeFlags_bpSkip (v : Word) : (s.writeFlags v).bpSkip = s.bpSkip := rfl
@[simp] theorem State.writeFlags_devices (v : Word) : (s.writeFlags v).devices = s.devices := rfl
@[simp] theorem State.writeFlags_intr (v : Word) : (s.writeFlags v).intr = s.intr := rfl
@[simp] theorem State.writeFlags_intaVector (v : Word) : (s.writeFlags v).intaVector = s.intaVector := rfl
@[simp] theorem State.writeFlags_test (v : Word) : (s.writeFlags v).test = s.test := rfl
@[simp] theorem State.writeFlags_breakpoints (v : Word) : (s.writeFlags v).breakpoints = s.breakpoints := rfl
@[simp] theorem State.writeFlags_ctx (v : Word) : (s.writeFlags v).ctx = s.ctx := rfl
@[simp] theorem State.writeFlags_draws (v : Word) : (s.writeFlags v).draws = s.draws := rfl
@[simp] theorem State.writeFlags_agenda (v : Word) : (s.writeFlags v).agenda = s.agenda := rfl
@[simp] theorem State.writeFlags_reply (v : Word) : (s.writeFlags v).reply = s.reply := rfl

/-! ### draw -/

@[simp] theorem State.draw_regs : (s.draw.2).regs = s.regs := rfl
@[simp] theorem State.draw_segs : (s.draw.2).segs = s.segs := rfl
@[simp] theorem State.draw_pc : (s.draw.2).pc = s.pc := rfl
@[simp] theorem State.draw_flags : (s.draw.2).flags = s.flags := rfl
@[simp] theorem State.draw_queue : (s.draw.2).queue = s.queue := rfl
@[simp] theorem State.draw_tstate : (s.draw.2).tstate = s.tstate := rfl
@[simp] theorem State.draw_deliveryPending : (s.draw.2).deliveryPending = s.deliveryPending := rfl
@[simp] theorem State.draw_mem : (s.draw.2).mem = s.mem := rfl
@[simp] theorem State.draw_latch : (s.draw.2).latch = s.latch := rfl
@[simp] theorem State.draw_lastEa : (s.draw.2).lastEa = s.lastEa := rfl
@[simp] theorem State.draw_halted : (s.draw.2).halted = s.halted := rfl
@[simp] theorem State.draw_nmiLatched : (s.draw.2).nmiLatched = s.nmiLatched := rfl
@[simp] theorem State.draw_inhibit : (s.draw.2).inhibit = s.inhibit := rfl
@[simp] theorem State.draw_bpSkip : (s.draw.2).bpSkip = s.bpSkip := rfl
@[simp] theorem State.draw_devices : (s.draw.2).devices = s.devices := rfl
@[simp] theorem State.draw_intr : (s.draw.2).intr = s.intr := rfl
@[simp] theorem State.draw_intaVector : (s.draw.2).intaVector = s.intaVector := rfl
@[simp] theorem State.draw_test : (s.draw.2).test = s.test := rfl
@[simp] theorem State.draw_breakpoints : (s.draw.2).breakpoints = s.breakpoints := rfl
@[simp] theorem State.draw_ctx : (s.draw.2).ctx = s.ctx := rfl
@[simp] theorem State.draw_draws : (s.draw.2).draws = s.draws + 1 := rfl
@[simp] theorem State.draw_agenda : (s.draw.2).agenda = s.agenda := rfl
@[simp] theorem State.draw_reply : (s.draw.2).reply = s.reply := rfl

/-! ### drawFlag -/

@[simp] theorem State.drawFlag_regs (f : Flag) : (s.drawFlag f).regs = s.regs := by simp [State.drawFlag]
@[simp] theorem State.drawFlag_segs (f : Flag) : (s.drawFlag f).segs = s.segs := by simp [State.drawFlag]
@[simp] theorem State.drawFlag_pc (f : Flag) : (s.drawFlag f).pc = s.pc := by simp [State.drawFlag]
@[simp] theorem State.drawFlag_queue (f : Flag) : (s.drawFlag f).queue = s.queue := by simp [State.drawFlag]
@[simp] theorem State.drawFlag_tstate (f : Flag) : (s.drawFlag f).tstate = s.tstate := by simp [State.drawFlag]
@[simp] theorem State.drawFlag_deliveryPending (f : Flag) : (s.drawFlag f).deliveryPending = s.deliveryPending := by simp [State.drawFlag]
@[simp] theorem State.drawFlag_mem (f : Flag) : (s.drawFlag f).mem = s.mem := by simp [State.drawFlag]
@[simp] theorem State.drawFlag_latch (f : Flag) : (s.drawFlag f).latch = s.latch := by simp [State.drawFlag]
@[simp] theorem State.drawFlag_lastEa (f : Flag) : (s.drawFlag f).lastEa = s.lastEa := by simp [State.drawFlag]
@[simp] theorem State.drawFlag_halted (f : Flag) : (s.drawFlag f).halted = s.halted := by simp [State.drawFlag]
@[simp] theorem State.drawFlag_nmiLatched (f : Flag) : (s.drawFlag f).nmiLatched = s.nmiLatched := by simp [State.drawFlag]
@[simp] theorem State.drawFlag_inhibit (f : Flag) : (s.drawFlag f).inhibit = s.inhibit := by simp [State.drawFlag]
@[simp] theorem State.drawFlag_bpSkip (f : Flag) : (s.drawFlag f).bpSkip = s.bpSkip := by simp [State.drawFlag]
@[simp] theorem State.drawFlag_devices (f : Flag) : (s.drawFlag f).devices = s.devices := by simp [State.drawFlag]
@[simp] theorem State.drawFlag_intr (f : Flag) : (s.drawFlag f).intr = s.intr := by simp [State.drawFlag]
@[simp] theorem State.drawFlag_intaVector (f : Flag) : (s.drawFlag f).intaVector = s.intaVector := by simp [State.drawFlag]
@[simp] theorem State.drawFlag_test (f : Flag) : (s.drawFlag f).test = s.test := by simp [State.drawFlag]
@[simp] theorem State.drawFlag_breakpoints (f : Flag) : (s.drawFlag f).breakpoints = s.breakpoints := by simp [State.drawFlag]
@[simp] theorem State.drawFlag_ctx (f : Flag) : (s.drawFlag f).ctx = s.ctx := by simp [State.drawFlag]
@[simp] theorem State.drawFlag_draws (f : Flag) : (s.drawFlag f).draws = s.draws + 1 := by simp [State.drawFlag]
@[simp] theorem State.drawFlag_agenda (f : Flag) : (s.drawFlag f).agenda = s.agenda := by simp [State.drawFlag]
@[simp] theorem State.drawFlag_reply (f : Flag) : (s.drawFlag f).reply = s.reply := by simp [State.drawFlag]

/-! ### setSzp -/

@[simp] theorem State.setSzp_regs {w : Nat} (r : BitVec w) : (s.setSzp r).regs = s.regs := by simp [State.setSzp]
@[simp] theorem State.setSzp_segs {w : Nat} (r : BitVec w) : (s.setSzp r).segs = s.segs := by simp [State.setSzp]
@[simp] theorem State.setSzp_pc {w : Nat} (r : BitVec w) : (s.setSzp r).pc = s.pc := by simp [State.setSzp]
@[simp] theorem State.setSzp_queue {w : Nat} (r : BitVec w) : (s.setSzp r).queue = s.queue := by simp [State.setSzp]
@[simp] theorem State.setSzp_tstate {w : Nat} (r : BitVec w) : (s.setSzp r).tstate = s.tstate := by simp [State.setSzp]
@[simp] theorem State.setSzp_deliveryPending {w : Nat} (r : BitVec w) : (s.setSzp r).deliveryPending = s.deliveryPending := by simp [State.setSzp]
@[simp] theorem State.setSzp_mem {w : Nat} (r : BitVec w) : (s.setSzp r).mem = s.mem := by simp [State.setSzp]
@[simp] theorem State.setSzp_latch {w : Nat} (r : BitVec w) : (s.setSzp r).latch = s.latch := by simp [State.setSzp]
@[simp] theorem State.setSzp_lastEa {w : Nat} (r : BitVec w) : (s.setSzp r).lastEa = s.lastEa := by simp [State.setSzp]
@[simp] theorem State.setSzp_halted {w : Nat} (r : BitVec w) : (s.setSzp r).halted = s.halted := by simp [State.setSzp]
@[simp] theorem State.setSzp_nmiLatched {w : Nat} (r : BitVec w) : (s.setSzp r).nmiLatched = s.nmiLatched := by simp [State.setSzp]
@[simp] theorem State.setSzp_inhibit {w : Nat} (r : BitVec w) : (s.setSzp r).inhibit = s.inhibit := by simp [State.setSzp]
@[simp] theorem State.setSzp_bpSkip {w : Nat} (r : BitVec w) : (s.setSzp r).bpSkip = s.bpSkip := by simp [State.setSzp]
@[simp] theorem State.setSzp_devices {w : Nat} (r : BitVec w) : (s.setSzp r).devices = s.devices := by simp [State.setSzp]
@[simp] theorem State.setSzp_intr {w : Nat} (r : BitVec w) : (s.setSzp r).intr = s.intr := by simp [State.setSzp]
@[simp] theorem State.setSzp_intaVector {w : Nat} (r : BitVec w) : (s.setSzp r).intaVector = s.intaVector := by simp [State.setSzp]
@[simp] theorem State.setSzp_test {w : Nat} (r : BitVec w) : (s.setSzp r).test = s.test := by simp [State.setSzp]
@[simp] theorem State.setSzp_breakpoints {w : Nat} (r : BitVec w) : (s.setSzp r).breakpoints = s.breakpoints := by simp [State.setSzp]
@[simp] theorem State.setSzp_ctx {w : Nat} (r : BitVec w) : (s.setSzp r).ctx = s.ctx := by simp [State.setSzp]
@[simp] theorem State.setSzp_draws {w : Nat} (r : BitVec w) : (s.setSzp r).draws = s.draws := by simp [State.setSzp]
@[simp] theorem State.setSzp_agenda {w : Nat} (r : BitVec w) : (s.setSzp r).agenda = s.agenda := by simp [State.setSzp]
@[simp] theorem State.setSzp_reply {w : Nat} (r : BitVec w) : (s.setSzp r).reply = s.reply := by simp [State.setSzp]

/-! ### addC -/

@[simp] theorem State.addC_regs {w : Nat} (a b : BitVec w) (c : Bool) : ((s.addC a b c).2).regs = s.regs := by simp [State.addC]
@[simp] theorem State.addC_segs {w : Nat} (a b : BitVec w) (c : Bool) : ((s.addC a b c).2).segs = s.segs := by simp [State.addC]
@[simp] theorem State.addC_pc {w : Nat} (a b : BitVec w) (c : Bool) : ((s.addC a b c).2).pc = s.pc := by simp [State.addC]
@[simp] theorem State.addC_queue {w : Nat} (a b : BitVec w) (c : Bool) : ((s.addC a b c).2).queue = s.queue := by simp [State.addC]
@[simp] theorem State.addC_tstate {w : Nat} (a b : BitVec w) (c : Bool) : ((s.addC a b c).2).tstate = s.tstate := by simp [State.addC]
@[simp] theorem State.addC_deliveryPending {w : Nat} (a b : BitVec w) (c : Bool) : ((s.addC a b c).2).deliveryPending = s.deliveryPending := by simp [State.addC]
@[simp] theorem State.addC_mem {w : Nat} (a b : BitVec w) (c : Bool) : ((s.addC a b c).2).mem = s.mem := by simp [State.addC]
@[simp] theorem State.addC_latch {w : Nat} (a b : BitVec w) (c : Bool) : ((s.addC a b c).2).latch = s.latch := by simp [State.addC]
@[simp] theorem State.addC_lastEa {w : Nat} (a b : BitVec w) (c : Bool) : ((s.addC a b c).2).lastEa = s.lastEa := by simp [State.addC]
@[simp] theorem State.addC_halted {w : Nat} (a b : BitVec w) (c : Bool) : ((s.addC a b c).2).halted = s.halted := by simp [State.addC]
@[simp] theorem State.addC_nmiLatched {w : Nat} (a b : BitVec w) (c : Bool) : ((s.addC a b c).2).nmiLatched = s.nmiLatched := by simp [State.addC]
@[simp] theorem State.addC_inhibit {w : Nat} (a b : BitVec w) (c : Bool) : ((s.addC a b c).2).inhibit = s.inhibit := by simp [State.addC]
@[simp] theorem State.addC_bpSkip {w : Nat} (a b : BitVec w) (c : Bool) : ((s.addC a b c).2).bpSkip = s.bpSkip := by simp [State.addC]
@[simp] theorem State.addC_devices {w : Nat} (a b : BitVec w) (c : Bool) : ((s.addC a b c).2).devices = s.devices := by simp [State.addC]
@[simp] theorem State.addC_intr {w : Nat} (a b : BitVec w) (c : Bool) : ((s.addC a b c).2).intr = s.intr := by simp [State.addC]
@[simp] theorem State.addC_intaVector {w : Nat} (a b : BitVec w) (c : Bool) : ((s.addC a b c).2).intaVector = s.intaVector := by simp [State.addC]
@[simp] theorem State.addC_test {w : Nat} (a b : BitVec w) (c : Bool) : ((s.addC a b c).2).test = s.test := by simp [State.addC]
@[simp] theorem State.addC_breakpoints {w : Nat} (a b : BitVec w) (c : Bool) : ((s.addC a b c).2).breakpoints = s.breakpoints := by simp [State.addC]
@[simp] theorem State.addC_ctx {w : Nat} (a b : BitVec w) (c : Bool) : ((s.addC a b c).2).ctx = s.ctx := by simp [State.addC]
@[simp] theorem State.addC_draws {w : Nat} (a b : BitVec w) (c : Bool) : ((s.addC a b c).2).draws = s.draws := by simp [State.addC]
@[simp] theorem State.addC_agenda {w : Nat} (a b : BitVec w) (c : Bool) : ((s.addC a b c).2).agenda = s.agenda := by simp [State.addC]
@[simp] theorem State.addC_reply {w : Nat} (a b : BitVec w) (c : Bool) : ((s.addC a b c).2).reply = s.reply := by simp [State.addC]

/-! ### subB -/

@[simp] theorem State.subB_regs {w : Nat} (a b : BitVec w) (c : Bool) : ((s.subB a b c).2).regs = s.regs := by simp [State.subB]
@[simp] theorem State.subB_segs {w : Nat} (a b : BitVec w) (c : Bool) : ((s.subB a b c).2).segs = s.segs := by simp [State.subB]
@[simp] theorem State.subB_pc {w : Nat} (a b : BitVec w) (c : Bool) : ((s.subB a b c).2).pc = s.pc := by simp [State.subB]
@[simp] theorem State.subB_queue {w : Nat} (a b : BitVec w) (c : Bool) : ((s.subB a b c).2).queue = s.queue := by simp [State.subB]
@[simp] theorem State.subB_tstate {w : Nat} (a b : BitVec w) (c : Bool) : ((s.subB a b c).2).tstate = s.tstate := by simp [State.subB]
@[simp] theorem State.subB_deliveryPending {w : Nat} (a b : BitVec w) (c : Bool) : ((s.subB a b c).2).deliveryPending = s.deliveryPending := by simp [State.subB]
@[simp] theorem State.subB_mem {w : Nat} (a b : BitVec w) (c : Bool) : ((s.subB a b c).2).mem = s.mem := by simp [State.subB]
@[simp] theorem State.subB_latch {w : Nat} (a b : BitVec w) (c : Bool) : ((s.subB a b c).2).latch = s.latch := by simp [State.subB]
@[simp] theorem State.subB_lastEa {w : Nat} (a b : BitVec w) (c : Bool) : ((s.subB a b c).2).lastEa = s.lastEa := by simp [State.subB]
@[simp] theorem State.subB_halted {w : Nat} (a b : BitVec w) (c : Bool) : ((s.subB a b c).2).halted = s.halted := by simp [State.subB]
@[simp] theorem State.subB_nmiLatched {w : Nat} (a b : BitVec w) (c : Bool) : ((s.subB a b c).2).nmiLatched = s.nmiLatched := by simp [State.subB]
@[simp] theorem State.subB_inhibit {w : Nat} (a b : BitVec w) (c : Bool) : ((s.subB a b c).2).inhibit = s.inhibit := by simp [State.subB]
@[simp] theorem State.subB_bpSkip {w : Nat} (a b : BitVec w) (c : Bool) : ((s.subB a b c).2).bpSkip = s.bpSkip := by simp [State.subB]
@[simp] theorem State.subB_devices {w : Nat} (a b : BitVec w) (c : Bool) : ((s.subB a b c).2).devices = s.devices := by simp [State.subB]
@[simp] theorem State.subB_intr {w : Nat} (a b : BitVec w) (c : Bool) : ((s.subB a b c).2).intr = s.intr := by simp [State.subB]
@[simp] theorem State.subB_intaVector {w : Nat} (a b : BitVec w) (c : Bool) : ((s.subB a b c).2).intaVector = s.intaVector := by simp [State.subB]
@[simp] theorem State.subB_test {w : Nat} (a b : BitVec w) (c : Bool) : ((s.subB a b c).2).test = s.test := by simp [State.subB]
@[simp] theorem State.subB_breakpoints {w : Nat} (a b : BitVec w) (c : Bool) : ((s.subB a b c).2).breakpoints = s.breakpoints := by simp [State.subB]
@[simp] theorem State.subB_ctx {w : Nat} (a b : BitVec w) (c : Bool) : ((s.subB a b c).2).ctx = s.ctx := by simp [State.subB]
@[simp] theorem State.subB_draws {w : Nat} (a b : BitVec w) (c : Bool) : ((s.subB a b c).2).draws = s.draws := by simp [State.subB]
@[simp] theorem State.subB_agenda {w : Nat} (a b : BitVec w) (c : Bool) : ((s.subB a b c).2).agenda = s.agenda := by simp [State.subB]
@[simp] theorem State.subB_reply {w : Nat} (a b : BitVec w) (c : Bool) : ((s.subB a b c).2).reply = s.reply := by simp [State.subB]

/-! ### logicFlags -/

@[simp] theorem State.logicFlags_regs {w : Nat} (r : BitVec w) : (s.logicFlags r).regs = s.regs := by simp [State.logicFlags]
@[simp] theorem State.logicFlags_segs {w : Nat} (r : BitVec w) : (s.logicFlags r).segs = s.segs := by simp [State.logicFlags]
@[simp] theorem State.logicFlags_pc {w : Nat} (r : BitVec w) : (s.logicFlags r).pc = s.pc := by simp [State.logicFlags]
@[simp] theorem State.logicFlags_queue {w : Nat} (r : BitVec w) : (s.logicFlags r).queue = s.queue := by simp [State.logicFlags]
@[simp] theorem State.logicFlags_tstate {w : Nat} (r : BitVec w) : (s.logicFlags r).tstate = s.tstate := by simp [State.logicFlags]
@[simp] theorem State.logicFlags_deliveryPending {w : Nat} (r : BitVec w) : (s.logicFlags r).deliveryPending = s.deliveryPending := by simp [State.logicFlags]
@[simp] theorem State.logicFlags_mem {w : Nat} (r : BitVec w) : (s.logicFlags r).mem = s.mem := by simp [State.logicFlags]
@[simp] theorem State.logicFlags_latch {w : Nat} (r : BitVec w) : (s.logicFlags r).latch = s.latch := by simp [State.logicFlags]
@[simp] theorem State.logicFlags_lastEa {w : Nat} (r : BitVec w) : (s.logicFlags r).lastEa = s.lastEa := by simp [State.logicFlags]
@[simp] theorem State.logicFlags_halted {w : Nat} (r : BitVec w) : (s.logicFlags r).halted = s.halted := by simp [State.logicFlags]
@[simp] theorem State.logicFlags_nmiLatched {w : Nat} (r : BitVec w) : (s.logicFlags r).nmiLatched = s.nmiLatched := by simp [State.logicFlags]
@[simp] theorem State.logicFlags_inhibit {w : Nat} (r : BitVec w) : (s.logicFlags r).inhibit = s.inhibit := by simp [State.logicFlags]
@[simp] theorem State.logicFlags_bpSkip {w : Nat} (r : BitVec w) : (s.logicFlags r).bpSkip = s.bpSkip := by simp [State.logicFlags]
@[simp] theorem State.logicFlags_devices {w : Nat} (r : BitVec w) : (s.logicFlags r).devices = s.devices := by simp [State.logicFlags]
@[simp] theorem State.logicFlags_intr {w : Nat} (r : BitVec w) : (s.logicFlags r).intr = s.intr := by simp [State.logicFlags]
@[simp] theorem State.logicFlags_intaVector {w : Nat} (r : BitVec w) : (s.logicFlags r).intaVector = s.intaVector := by simp [State.logicFlags]
@[simp] theorem State.logicFlags_test {w : Nat} (r : BitVec w) : (s.logicFlags r).test = s.test := by simp [State.logicFlags]
@[simp] theorem State.logicFlags_breakpoints {w : Nat} (r : BitVec w) : (s.logicFlags r).breakpoints = s.breakpoints := by simp [State.logicFlags]
@[simp] theorem State.logicFlags_ctx {w : Nat} (r : BitVec w) : (s.logicFlags r).ctx = s.ctx := by simp [State.logicFlags]
@[simp] theorem State.logicFlags_draws {w : Nat} (r : BitVec w) : (s.logicFlags r).draws = s.draws + 1 := by simp [State.logicFlags]
@[simp] theorem State.logicFlags_agenda {w : Nat} (r : BitVec w) : (s.logicFlags r).agenda = s.agenda := by simp [State.logicFlags]
@[simp] theorem State.logicFlags_reply {w : Nat} (r : BitVec w) : (s.logicFlags r).reply = s.reply := by simp [State.logicFlags]

/-! ### pa -/

@[simp] theorem State.pa_regs (x o : Word) : ((s.pa x o).2).regs = s.regs := rfl
@[simp] theorem State.pa_segs (x o : Word) : ((s.pa x o).2).segs = s.segs := rfl
@[simp] theorem State.pa_pc (x o : Word) : ((s.pa x o).2).pc = s.pc := rfl
@[simp] theorem State.pa_flags (x o : Word) : ((s.pa x o).2).flags = s.flags := rfl
@[simp] theorem State.pa_queue (x o : Word) : ((s.pa x o).2).queue = s.queue := rfl
@[simp] theorem State.pa_tstate (x o : Word) : ((s.pa x o).2).tstate = s.tstate := rfl
@[simp] theorem State.pa_deliveryPending (x o : Word) : ((s.pa x o).2).deliveryPending = s.deliveryPending := rfl
@[simp] theorem State.pa_mem (x o : Word) : ((s.pa x o).2).mem = s.mem := rfl
@[simp] theorem State.pa_latch (x o : Word) : ((s.pa x o).2).latch = phys x o := rfl
@[simp] theorem State.pa_lastEa (x o : Word) : ((s.pa x o).2).lastEa = (phys x o).setWidth 32 := rfl
@[simp] theorem State.pa_halted (x o : Word) : ((s.pa x o).2).halted = s.halted := rfl
@[simp] theorem State.pa_nmiLatched (x o : Word) : ((s.pa x o).2).nmiLatched = s.nmiLatched := rfl
@[simp] theorem State.pa_inhibit (x o : Word) : ((s.pa x o).2).inhibit = s.inhibit := rfl
@[simp] theorem State.pa_bpSkip (x o : Word) : ((s.pa x o).2).bpSkip = s.bpSkip := rfl
@[simp] theorem State.pa_devices (x o : Word) : ((s.pa x o).2).devices = s.devices := rfl
@[simp] theorem State.pa_intr (x o : Word) : ((s.pa x o).2).intr = s.intr := rfl
@[simp] theorem State.pa_intaVector (x o : Word) : ((s.pa x o).2).intaVector = s.intaVector := rfl
@[simp] theorem State.pa_test (x o : Word) : ((s.pa x o).2).test = s.test := rfl
@[simp] theorem State.pa_breakpoints (x o : Word) : ((s.pa x o).2).breakpoints = s.breakpoints := rfl
@[simp] theorem State.pa_ctx (x o : Word) : ((s.pa x o).2).ctx = s.ctx := rfl
@[simp] theorem State.pa_draws (x o : Word) : ((s.pa x o).2).draws = s.draws := rfl
@[simp] theorem State.pa_agenda (x o : Word) : ((s.pa x o).2).agenda = s.agenda := rfl
@[simp] theorem State.pa_reply (x o : Word) : ((s.pa x o).2).reply = s.reply := rfl

/-! ### setMemByte -/

@[simp] theorem State.setMemByte_regs (a : Phys) (b : Byte) : (s.setMemByte a b).regs = s.regs := rfl
@[simp] theorem State.setMemByte_segs (a : Phys) (b : Byte) : (s.setMemByte a b).segs = s.segs := rfl
@[simp] theorem State.setMemByte_pc (a : Phys) (b : Byte) : (s.setMemByte a b).pc = s.pc := rfl
@[simp] theorem State.setMemByte_flags (a : Phys) (b : Byte) : (s.setMemByte a b).flags = s.flags := rfl
@[simp] theorem State.setMemByte_queue (a : Phys) (b : Byte) : (s.setMemByte a b).queue = s.queue := rfl
@[simp] theorem State.setMemByte_tstate (a : Phys) (b : Byte) : (s.setMemByte a b).tstate = s.tstate := rfl
@[simp] theorem State.setMemByte_deliveryPending (a : Phys) (b : Byte) : (s.setMemByte a b).deliveryPending = s.deliveryPending := rfl
@[simp] theorem State.setMemByte_mem (a : Phys) (b : Byte) : (s.setMemByte a b).mem = writeMem s.mem a.toNat b := rfl
@[simp] theorem State.setMemByte_latch (a : Phys) (b : Byte) : (s.setMemByte a b).latch = s.latch := rfl
@[simp] theorem State.setMemByte_lastEa (a : Phys) (b : Byte) : (s.setMemByte a b).lastEa = s.lastEa := rfl
@[simp] theorem State.setMemByte_halted (a : Phys) (b : Byte) : (s.setMemByte a b).halted = s.halted := rfl
@[simp] theorem State.setMemByte_nmiLatched (a : Phys) (b : Byte) : (s.setMemByte a b).nmiLatched = s.nmiLatched := rfl
@[simp] theorem State.setMemByte_inhibit (a : Phys) (b : Byte) : (s.setMemByte a b).inhibit = s.inhibit := rfl
@[simp] theorem State.setMemByte_bpSkip (a : Phys) (b : Byte) : (s.setMemByte a b).bpSkip = s.bpSkip := rfl
@[simp] theorem State.setMemByte_devices (a : Phys) (b : Byte) : (s.setMemByte a b).devices = s.devices := rfl
@[simp] theorem State.setMemByte_intr (a : Phys) (b : Byte) : (s.setMemByte a b).intr = s.intr := rfl
@[simp] theorem State.setMemByte_intaVector (a : Phys) (b : Byte) : (s.setMemByte a b).intaVector = s.intaVector := rfl
@[simp] theorem State.setMemByte_test (a : Phys) (b : Byte) : (s.setMemByte a b).test = s.test := rfl
@[simp] theorem State.setMemByte_breakpoints (a : Phys) (b : Byte) : (s.setMemByte a b).breakpoints = s.breakpoints := rfl
@[simp] theorem State.setMemByte_ctx (a : Phys) (b : Byte) : (s.setMemByte a b).ctx = s.ctx := rfl
@[simp] theorem State.setMemByte_draws (a : Phys) (b : Byte) : (s.setMemByte a b).draws = s.draws := rfl
@[simp] theorem State.setMemByte_agenda (a : Phys) (b : Byte) : (s.setMemByte a b).agenda = s.agenda := rfl
@[simp] theorem State.setMemByte_reply (a : Phys) (b : Byte) : (s.setMemByte a b).reply = s.reply := rfl

/-! ### read8 -/

@[simp] theorem State.read8_regs (x o : Word) : ((s.read8 x o).2).regs = s.regs := by simp [State.read8]
@[simp] theorem State.read8_segs (x o : Word) : ((s.read8 x o).2).segs = s.segs := by simp [State.read8]
@[simp] theorem State.read8_pc (x o : Word) : ((s.read8 x o).2).pc = s.pc := by simp [State.read8]
@[simp] theorem State.read8_flags (x o : Word) : ((s.read8 x o).2).flags = s.flags := by simp [State.read8]
@[simp] theorem State.read8_queue (x o : Word) : ((s.read8 x o).2).queue = s.queue := by simp [State.read8]
@[simp] theorem State.read8_tstate (x o : Word) : ((s.read8 x o).2).tstate = s.tstate := by simp [State.read8]
@[simp] theorem State.read8_deliveryPending (x o : Word) : ((s.read8 x o).2).deliveryPending = s.deliveryPending := by simp [State.read8]
@[simp] theorem State.read8_mem (x o : Word) : ((s.read8 x o).2).mem = s.mem := by simp [State.read8]
@[simp] theorem State.read8_latch (x o : Word) : ((s.read8 x o).2).latch = phys x o := by simp [State.read8]
@[simp] theorem State.read8_lastEa (x o : Word) : ((s.read8 x o).2).lastEa = (phys x o).setWidth 32 := by simp [State.read8]
@[simp] theorem State.read8_halted (x o : Word) : ((s.read8 x o).2).halted = s.halted := by simp [State.read8]
@[simp] theorem State.read8_nmiLatched (x o : Word) : ((s.read8 x o).2).nmiLatched = s.nmiLatched := by simp [State.read8]
@[simp] theorem State.read8_inhibit (x o : Word) : ((s.read8 x o).2).inhibit = s.inhibit := by simp [State.read8]
@[simp] theorem State.read8_bpSkip (x o : Word) : ((s.read8 x o).2).bpSkip = s.bpSkip := by simp [State.read8]
@[simp] theorem State.read8_devices (x o : Word) : ((s.read8 x o).2).devices = s.devices := by simp [State.read8]
@[simp] theorem State.read8_intr (x o : Word) : ((s.read8 x o).2).intr = s.intr := by simp [State.read8]
@[simp] theorem State.read8_intaVector (x o : Word) : ((s.read8 x o).2).intaVector = s.intaVector := by simp [State.read8]
@[simp] theorem State.read8_test (x o : Word) : ((s.read8 x o).2).test = s.test := by simp [State.read8]
@[simp] theorem State.read8_breakpoints (x o : Word) : ((s.read8 x o).2).breakpoints = s.breakpoints := by simp [State.read8]
@[simp] theorem State.read8_ctx (x o : Word) : ((s.read8 x o).2).ctx = s.ctx := by simp [State.read8]
@[simp] theorem State.read8_draws (x o : Word) : ((s.read8 x o).2).draws = s.draws := by simp [State.read8]
@[simp] theorem State.read8_agenda (x o : Word) : ((s.read8 x o).2).agenda = s.agenda := by simp [State.read8]
@[simp] theorem State.read8_reply (x o : Word) : ((s.read8 x o).2).reply = s.reply := by simp [State.read8]

/-! ### read16 -/

@[simp] theorem State.read16_regs (x o : Word) : ((s.read16 x o).2).regs = s.regs := by simp [State.read16]
@[simp] theorem State.read16_segs (x o : Word) : ((s.read16 x o).2).segs = s.segs := by simp [State.read16]
@[simp] theorem State.read16_pc (x o : Word) : ((s.read16 x o).2).pc = s.pc := by simp [State.read16]
@[simp] theorem State.read16_flags (x o : Word) : ((s.read16 x o).2).flags = s.flags := by simp [State.read16]
@[simp] theorem State.read16_queue (x o : Word) : ((s.read16 x o).2).queue = s.queue := by simp [State.read16]
@[simp] theorem State.read16_tstate (x o : Word) : ((s.read16 x o).2).tstate = s.tstate := by simp [State.read16]
@[simp] theorem State.read16_deliveryPending (x o : Word) : ((s.read16 x o).2).deliveryPending = s.deliveryPending := by simp [State.read16]
@[simp] theorem State.read16_mem (x o : Word) : ((s.read16 x o).2).mem = s.mem := by simp [State.read16]
@[simp] theorem State.read16_latch (x o : Word) : ((s.read16 x o).2).latch = phys x (o + 1) := by simp [State.read16]
@[simp] theorem State.read16_lastEa (x o : Word) : ((s.read16 x o).2).lastEa = (phys x (o + 1)).setWidth 32 := by simp [State.read16]
@[simp] theorem State.read16_halted (x o : Word) : ((s.read16 x o).2).halted = s.halted := by simp [State.read16]
@[simp] theorem State.read16_nmiLatched (x o : Word) : ((s.read16 x o).2).nmiLatched = s.nmiLatched := by simp [State.read16]
@[simp] theorem State.read16_inhibit (x o : Word) : ((s.read16 x o).2).inhibit = s.inhibit := by simp [State.read16]
@[simp] theorem State.read16_bpSkip (x o : Word) : ((s.read16 x o).2).bpSkip = s.bpSkip := by simp [State.read16]
@[simp] theorem State.read16_devices (x o : Word) : ((s.read16 x o).2).devices = s.devices := by simp [State.read16]
@[simp] theorem State.read16_intr (x o : Word) : ((s.read16 x o).2).intr = s.intr := by simp [State.read16]
@[simp] theorem State.read16_intaVector (x o : Word) : ((s.read16 x o).2).intaVector = s.intaVector := by simp [State.read16]
@[simp] theorem State.read16_test (x o : Word) : ((s.read16 x o).2).test = s.test := by simp [State.read16]
@[simp] theorem State.read16_breakpoints (x o : Word) : ((s.read16 x o).2).breakpoints = s.breakpoints := by simp [State.read16]
@[simp] theorem State.read16_ctx (x o : Word) : ((s.read16 x o).2).ctx = s.ctx := by simp [State.read16]
@[simp] theorem State.read16_draws (x o : Word) : ((s.read16 x o).2).draws = s.draws := by simp [State.read16]
@[simp] theorem State.read16_agenda (x o : Word) : ((s.read16 x o).2).agenda = s.agenda := by simp [State.read16]
@[simp] theorem State.read16_reply (x o : Word) : ((s.read16 x o).2).reply = s.reply := by simp [State.read16]

/-! ### write8 -/

@[simp] theorem State.write8_regs (x o : Word) (v : Byte) : (s.write8 x o v).regs = s.regs := by simp [State.write8]
@[simp] theorem State.write8_segs (x o : Word) (v : Byte) : (s.write8 x o v).segs = s.segs := by simp [State.write8]
@[simp] theorem State.write8_pc (x o : Word) (v : Byte) : (s.write8 x o v).pc = s.pc := by simp [State.write8]
@[simp] theorem State.write8_flags (x o : Word) (v : Byte) : (s.write8 x o v).flags = s.flags := by simp [State.write8]
@[simp] theorem State.write8_queue (x o : Word) (v : Byte) : (s.write8 x o v).queue = s.queue := by simp [State.write8]
@[simp] theorem State.write8_tstate (x o : Word) (v : Byte) : (s.write8 x o v).tstate = s.tstate := by simp [State.write8]
@[simp] theorem State.write8_deliveryPending (x o : Word) (v : Byte) : (s.write8 x o v).deliveryPending = s.deliveryPending := by simp [State.write8]
@[simp] theorem State.write8_mem (x o : Word) (v : Byte) : (s.write8 x o v).mem = writeMem s.mem (phys x o).toNat v := by simp [State.write8]
@[simp] theorem State.write8_latch (x o : Word) (v : Byte) : (s.write8 x o v).latch = phys x o := by simp [State.write8]
@[simp] theorem State.write8_lastEa (x o : Word) (v : Byte) : (s.write8 x o v).lastEa = (phys x o).setWidth 32 := by simp [State.write8]
@[simp] theorem State.write8_halted (x o : Word) (v : Byte) : (s.write8 x o v).halted = s.halted := by simp [State.write8]
@[simp] theorem State.write8_nmiLatched (x o : Word) (v : Byte) : (s.write8 x o v).nmiLatched = s.nmiLatched := by simp [State.write8]
@[simp] theorem State.write8_inhibit (x o : Word) (v : Byte) : (s.write8 x o v).inhibit = s.inhibit := by simp [State.write8]
@[simp] theorem State.write8_bpSkip (x o : Word) (v : Byte) : (s.write8 x o v).bpSkip = s.bpSkip := by simp [State.write8]
@[simp] theorem State.write8_devices (x o : Word) (v : Byte) : (s.write8 x o v).devices = s.devices := by simp [State.write8]
@[simp] theorem State.write8_intr (x o : Word) (v : Byte) : (s.write8 x o v).intr = s.intr := by simp [State.write8]
@[simp] theorem State.write8_intaVector (x o : Word) (v : Byte) : (s.write8 x o v).intaVector = s.intaVector := by simp [State.write8]
@[simp] theorem State.write8_test (x o : Word) (v : Byte) : (s.write8 x o v).test = s.test := by simp [State.write8]
@[simp] theorem State.write8_breakpoints (x o : Word) (v : Byte) : (s.write8 x o v).breakpoints = s.breakpoints := by simp [State.write8]
@[simp] theorem State.write8_ctx (x o : Word) (v : Byte) : (s.write8 x o v).ctx = s.ctx := by simp [State.write8]
@[simp] theorem State.write8_draws (x o : Word) (v : Byte) : (s.write8 x o v).draws = s.draws := by simp [State.write8]
@[simp] theorem State.write8_agenda (x o : Word) (v : Byte) : (s.write8 x o v).agenda = s.agenda := by simp [State.write8]
@[simp] theorem State.write8_reply (x o : Word) (v : Byte) : (s.write8 x o v).reply = s.reply := by simp [State.write8]

/-! ### write16 -/

@[simp] theorem State.write16_regs (x o v : Word) : (s.write16 x o v).regs = s.regs := by simp [State.write16]
@[simp] theorem State.write16_segs (x o v : Word) : (s.write16 x o v).segs = s.segs := by simp [State.write16]
@[simp] theorem State.write16_pc (x o v : Word) : (s.write16 x o v).pc = s.pc := by simp [State.write16]
@[simp] theorem State.write16_flags (x o v : Word) : (s.write16 x o v).flags = s.flags := by simp [State.write16]
@[simp] theorem State.write16_queue (x o v : Word) : (s.write16 x o v).queue = s.queue := by simp [State.write16]
@[simp] theorem State.write16_tstate (x o v : Word) : (s.write16 x o v).tstate = s.tstate := by simp [State.write16]
@[simp] theorem State.write16_deliveryPending (x o v : Word) : (s.write16 x o v).deliveryPending = s.deliveryPending := by simp [State.write16]
@[simp] theorem State.write16_mem (x o v : Word) : (s.write16 x o v).mem = writeMem (writeMem s.mem (phys x o).toNat (lo8 v)) (phys x (o + 1)).toNat (hi8 v) := by simp [State.write16]
@[simp] theorem State.write16_latch (x o v : Word) : (s.write16 x o v).latch = phys x (o + 1) := by simp [State.write16]
@[simp] theorem State.write16_lastEa (x o v : Word) : (s.write16 x o v).lastEa = (phys x (o + 1)).setWidth 32 := by simp [State.write16]
@[simp] theorem State.write16_halted (x o v : Word) : (s.write16 x o v).halted = s.halted := by simp [State.write16]
@[simp] theorem State.write16_nmiLatched (x o v : Word) : (s.write16 x o v).nmiLatched = s.nmiLatched := by simp [State.write16]
@[simp] theorem State.write16_inhibit (x o v : Word) : (s.write16 x o v).inhibit = s.inhibit := by simp [State.write16]
@[simp] theorem State.write16_bpSkip (x o v : Word) : (s.write16 x o v).bpSkip = s.bpSkip := by simp [State.write16]
@[simp] theorem State.write16_devices (x o v : Word) : (s.write16 x o v).devices = s.devices := by simp [State.write16]
@[simp] theorem State.write16_intr (x o v : Word) : (s.write16 x o v).intr = s.intr := by simp [State.write16]
@[simp] theorem State.write16_intaVector (x o v : Word) : (s.write16 x o v).intaVector = s.intaVector := by simp [State.write16]
@[simp] theorem State.write16_test (x o v : Word) : (s.write16 x o v).test = s.test := by simp [State.write16]
@[simp] theorem State.write16_breakpoints (x o v : Word) : (s.write16 x o v).breakpoints = s.breakpoints := by simp [State.write16]
@[simp] theorem State.write16_ctx (x o v : Word) : (s.write16 x o v).ctx = s.ctx := by simp [State.write16]
@[simp] theorem State.write16_draws (x o v : Word) : (s.write16 x o v).draws = s.draws := by simp [State.write16]
@[simp] theorem State.write16_agenda (x o v : Word) : (s.write16 x o v).agenda = s.agenda := by simp [State.write16]
@[simp] theorem State.write16_reply (x o v : Word) : (s.write16 x o v).reply = s.reply := by simp [State.write16]

/-! ### flush -/

@[simp] theorem State.flush_regs : (s.flush).regs = s.regs := rfl
@[simp] theorem State.flush_segs : (s.flush).segs = s.segs := rfl
@[simp] theorem State.flush_pc : (s.flush).pc = s.pc := rfl
@[simp] theorem State.flush_flags : (s.flush).flags = s.flags := rfl
@[simp] theorem State.flush_tstate : (s.flush).tstate = .idle := rfl
@[simp] theorem State.flush_deliveryPending : (s.flush).deliveryPending = false := rfl
@[simp] theorem State.flush_mem : (s.flush).mem = s.mem := rfl
@[simp] theorem State.flush_latch : (s.flush).latch = s.latch := rfl
@[simp] theorem State.flush_lastEa : (s.flush).lastEa = s.lastEa := rfl
@[simp] theorem State.flush_halted : (s.flush).halted = s.halted := rfl
@[simp] theorem State.flush_nmiLatched : (s.flush).nmiLatched = s.nmiLatched := rfl
@[simp] theorem State.flush_inhibit : (s.flush).inhibit = s.inhibit := rfl
@[simp] theorem State.flush_bpSkip : (s.flush).bpSkip = s.bpSkip := rfl
@[simp] theorem State.flush_devices : (s.flush).devices = s.devices := rfl
@[simp] theorem State.flush_intr : (s.flush).intr = s.intr := rfl
@[simp] theorem State.flush_intaVector : (s.flush).intaVector = s.intaVector := rfl
@[simp] theorem State.flush_test : (s.flush).test = s.test := rfl
@[simp] theorem State.flush_breakpoints : (s.flush).breakpoints = s.breakpoints := rfl
@[simp] theorem State.flush_ctx : (s.flush).ctx = s.ctx := rfl
@[simp] theorem State.flush_draws : (s.flush).draws = s.draws := rfl
@[simp] theorem State.flush_agenda : (s.flush).agenda = s.agenda := rfl
@[simp] theorem State.flush_reply : (s.flush).reply = s.reply := rfl

/-! ### jump -/

@[simp] theorem State.jump_regs (t : Word) : (s.jump t).regs = s.regs := by simp [State.jump]
@[simp] theorem State.jump_segs (t : Word) : (s.jump t).segs = s.segs := by simp [State.jump]
@[simp] theorem State.jump_pc (t : Word) : (s.jump t).pc = t := by simp [State.jump]
@[simp] theorem State.jump_flags (t : Word) : (s.jump t).flags = s.flags := by simp [State.jump]
@[simp] theorem State.jump_queue (t : Word) : (s.jump t).queue = s.flush.queue := by simp [State.jump]
@[simp] theorem State.jump_tstate (t : Word) : (s.jump t).tstate = .idle := by simp [State.jump]
@[simp] theorem State.jump_deliveryPending (t : Word) : (s.jump t).deliveryPending = false := by simp [State.jump]
@[simp] theorem State.jump_mem (t : Word) : (s.jump t).mem = s.mem := by simp [State.jump]
@[simp] theorem State.jump_latch (t : Word) : (s.jump t).latch = s.latch := by simp [State.jump]
@[simp] theorem State.jump_lastEa (t : Word) : (s.jump t).lastEa = s.lastEa := by simp [State.jump]
@[simp] theorem State.jump_halted (t : Word) : (s.jump t).halted = s.halted := by simp [State.jump]
@[simp] theorem State.jump_nmiLatched (t : Word) : (s.jump t).nmiLatched = s.nmiLatched := by simp [State.jump]
@[simp] theorem State.jump_inhibit (t : Word) : (s.jump t).inhibit = s.inhibit := by simp [State.jump]
@[simp] theorem State.jump_bpSkip (t : Word) : (s.jump t).bpSkip = s.bpSkip := by simp [State.jump]
@[simp] theorem State.jump_devices (t : Word) : (s.jump t).devices = s.devices := by simp [State.jump]
@[simp] theorem State.jump_intr (t : Word) : (s.jump t).intr = s.intr := by simp [State.jump]
@[simp] theorem State.jump_intaVector (t : Word) : (s.jump t).intaVector = s.intaVector := by simp [State.jump]
@[simp] theorem State.jump_test (t : Word) : (s.jump t).test = s.test := by simp [State.jump]
@[simp] theorem State.jump_breakpoints (t : Word) : (s.jump t).breakpoints = s.breakpoints := by simp [State.jump]
@[simp] theorem State.jump_ctx (t : Word) : (s.jump t).ctx = s.ctx := by simp [State.jump]
@[simp] theorem State.jump_draws (t : Word) : (s.jump t).draws = s.draws := by simp [State.jump]
@[simp] theorem State.jump_agenda (t : Word) : (s.jump t).agenda = s.agenda := by simp [State.jump]
@[simp] theorem State.jump_reply (t : Word) : (s.jump t).reply = s.reply := by simp [State.jump]

/-! ### farJump -/

@[simp] theorem State.farJump_regs (x o : Word) : (s.farJump x o).regs = s.regs := by simp [State.farJump]
@[simp] theorem State.farJump_pc (x o : Word) : (s.farJump x o).pc = o := by simp [State.farJump]
@[simp] theorem State.farJump_flags (x o : Word) : (s.farJump x o).flags = s.flags := by simp [State.farJump]
@[simp] theorem State.farJump_queue (x o : Word) : (s.farJump x o).queue = s.flush.queue := by simp [State.farJump, State.flush]
@[simp] theorem State.farJump_tstate (x o : Word) : (s.farJump x o).tstate = .idle := by simp [State.farJump]
@[simp] theorem State.farJump_deliveryPending (x o : Word) : (s.farJump x o).deliveryPending = false := by simp [State.farJump]
@[simp] theorem State.farJump_mem (x o : Word) : (s.farJump x o).mem = s.mem := by simp [State.farJump]
@[simp] theorem State.farJump_latch (x o : Word) : (s.farJump x o).latch = s.latch := by simp [State.farJump]
@[simp] theorem State.farJump_lastEa (x o : Word) : (s.farJump x o).lastEa = s.lastEa := by simp [State.farJump]
@[simp] theorem State.farJump_halted (x o : Word) : (s.farJump x o).halted = s.halted := by simp [State.farJump]
@[simp] theorem State.farJump_nmiLatched (x o : Word) : (s.farJump x o).nmiLatched = s.nmiLatched := by simp [State.farJump]
@[simp] theorem State.farJump_inhibit (x o : Word) : (s.farJump x o).inhibit = s.inhibit := by simp [State.farJump]
@[simp] theorem State.farJump_bpSkip (x o : Word) : (s.farJump x o).bpSkip = s.bpSkip := by simp [State.farJump]
@[simp] theorem State.farJump_devices (x o : Word) : (s.farJump x o).devices = s.devices := by simp [State.farJump]
@[simp] theorem State.farJump_intr (x o : Word) : (s.farJump x o).intr = s.intr := by simp [State.farJump]
@[simp] theorem State.farJump_intaVector (x o : Word) : (s.farJump x o).intaVector = s.intaVector := by simp [State.farJump]
@[simp] theorem State.farJump_test (x o : Word) : (s.farJump x o).test = s.test := by simp [State.farJump]
@[simp] theorem State.farJump_breakpoints (x o : Word) : (s.farJump x o).breakpoints = s.breakpoints := by simp [State.farJump]
@[simp] theorem State.farJump_ctx (x o : Word) : (s.farJump x o).ctx = s.ctx := by simp [State.farJump]
@[simp] theorem State.farJump_draws (x o : Word) : (s.farJump x o).draws = s.draws := by simp [State.farJump]
@[simp] theorem State.farJump_agenda (x o : Word) : (s.farJump x o).agenda = s.agenda := by simp [State.farJump]
@[simp] theorem State.farJump_reply (x o : Word) : (s.farJump x o).reply = s.reply := by simp [State.farJump]

/-! ### push16 -/

@[simp] theorem State.push16_regs (v : Word) : (s.push16 v).regs = s.regs.set .sp (s.reg16 .sp - 2) := by simp [State.push16]
@[simp] theorem State.push16_segs (v : Word) : (s.push16 v).segs = s.segs := by simp [State.push16]
@[simp] theorem State.push16_pc (v : Word) : (s.push16 v).pc = s.pc := by simp [State.push16]
@[simp] theorem State.push16_flags (v : Word) : (s.push16 v).flags = s.flags := by simp [State.push16]
@[simp] theorem State.push16_queue (v : Word) : (s.push16 v).queue = s.queue := by simp [State.push16]
@[simp] theorem State.push16_tstate (v : Word) : (s.push16 v).tstate = s.tstate := by simp [State.push16]
@[simp] theorem State.push16_deliveryPending (v : Word) : (s.push16 v).deliveryPending = s.deliveryPending := by simp [State.push16]
@[simp] theorem State.push16_halted (v : Word) : (s.push16 v).halted = s.halted := by simp [State.push16]
@[simp] theorem State.push16_nmiLatched (v : Word) : (s.push16 v).nmiLatched = s.nmiLatched := by simp [State.push16]
@[simp] theorem State.push16_inhibit (v : Word) : (s.push16 v).inhibit = s.inhibit := by simp [State.push16]
@[simp] theorem State.push16_bpSkip (v : Word) : (s.push16 v).bpSkip = s.bpSkip := by simp [State.push16]
@[simp] theorem State.push16_devices (v : Word) : (s.push16 v).devices = s.devices := by simp [State.push16]
@[simp] theorem State.push16_intr (v : Word) : (s.push16 v).intr = s.intr := by simp [State.push16]
@[simp] theorem State.push16_intaVector (v : Word) : (s.push16 v).intaVector = s.intaVector := by simp [State.push16]
@[simp] theorem State.push16_test (v : Word) : (s.push16 v).test = s.test := by simp [State.push16]
@[simp] theorem State.push16_breakpoints (v : Word) : (s.push16 v).breakpoints = s.breakpoints := by simp [State.push16]
@[simp] theorem State.push16_ctx (v : Word) : (s.push16 v).ctx = s.ctx := by simp [State.push16]
@[simp] theorem State.push16_draws (v : Word) : (s.push16 v).draws = s.draws := by simp [State.push16]
@[simp] theorem State.push16_agenda (v : Word) : (s.push16 v).agenda = s.agenda := by simp [State.push16]
@[simp] theorem State.push16_reply (v : Word) : (s.push16 v).reply = s.reply := by simp [State.push16]

/-! ### pop16 -/

@[simp] theorem State.pop16_regs : (s.pop16.2).regs = s.regs.set .sp (s.reg16 .sp + 2) := by simp [State.pop16, State.reg16]
@[simp] theorem State.pop16_segs : (s.pop16.2).segs = s.segs := by simp [State.pop16]
@[simp] theorem State.pop16_pc : (s.pop16.2).pc = s.pc := by simp [State.pop16]
@[simp] theorem State.pop16_flags : (s.pop16.2).flags = s.flags := by simp [State.pop16]
@[simp] theorem State.pop16_queue : (s.pop16.2).queue = s.queue := by simp [State.pop16]
@[simp] theorem State.pop16_tstate : (s.pop16.2).tstate = s.tstate := by simp [State.pop16]
@[simp] theorem State.pop16_deliveryPending : (s.pop16.2).deliveryPending = s.deliveryPending := by simp [State.pop16]
@[simp] theorem State.pop16_mem : (s.pop16.2).mem = s.mem := by simp [State.pop16]
@[simp] theorem State.pop16_halted : (s.pop16.2).halted = s.halted := by simp [State.pop16]
@[simp] theorem State.pop16_nmiLatched : (s.pop16.2).nmiLatched = s.nmiLatched := by simp [State.pop16]
@[simp] theorem State.pop16_inhibit : (s.pop16.2).inhibit = s.inhibit := by simp [State.pop16]
@[simp] theorem State.pop16_bpSkip : (s.pop16.2).bpSkip = s.bpSkip := by simp [State.pop16]
@[simp] theorem State.pop16_devices : (s.pop16.2).devices = s.devices := by simp [State.pop16]
@[simp] theorem State.pop16_intr : (s.pop16.2).intr = s.intr := by simp [State.pop16]
@[simp] theorem State.pop16_intaVector : (s.pop16.2).intaVector = s.intaVector := by simp [State.pop16]
@[simp] theorem State.pop16_test : (s.pop16.2).test = s.test := by simp [State.pop16]
@[simp] theorem State.pop16_breakpoints : (s.pop16.2).breakpoints = s.breakpoints := by simp [State.pop16]
@[simp] theorem State.pop16_ctx : (s.pop16.2).ctx = s.ctx := by simp [State.pop16]
@[simp] theorem State.pop16_draws : (s.pop16.2).draws = s.draws := by simp [State.pop16]
@[simp] theorem State.pop16_agenda : (s.pop16.2).agenda = s.agenda := by simp [State.pop16]
@[simp] theorem State.pop16_reply : (s.pop16.2).reply = s.reply := by simp [State.pop16]

/-! ### setOvr -/

@[simp] theorem State.setOvr_regs (g : Seg) : (s.setOvr g).regs = s.regs := rfl
@[simp] theorem State.setOvr_segs (g : Seg) : (s.setOvr g).segs = s.segs := rfl
@[simp] theorem State.setOvr_pc (g : Seg) : (s.setOvr g).pc = s.pc := rfl
@[simp] theorem State.setOvr_flags (g : Seg) : (s.setOvr g).flags = s.flags := rfl
@[simp] theorem State.setOvr_queue (g : Seg) : (s.setOvr g).queue = s.queue := rfl
@[simp] theorem State.setOvr_tstate (g : Seg) : (s.setOvr g).tstate = s.tstate := rfl
@[simp] theorem State.setOvr_deliveryPending (g : Seg) : (s.setOvr g).deliveryPending = s.deliveryPending := rfl
@[simp] theorem State.setOvr_mem (g : Seg) : (s.setOvr g).mem = s.mem := rfl
@[simp] theorem State.setOvr_latch (g : Seg) : (s.setOvr g).latch = s.latch := rfl
@[simp] theorem State.setOvr_lastEa (g : Seg) : (s.setOvr g).lastEa = s.lastEa := rfl
@[simp] theorem State.setOvr_halted (g : Seg) : (s.setOvr g).halted = s.halted := rfl
@[simp] theorem State.setOvr_nmiLatched (g : Seg) : (s.setOvr g).nmiLatched = s.nmiLatched := rfl
@[simp] theorem State.setOvr_inhibit (g : Seg) : (s.setOvr g).inhibit = s.inhibit := rfl
@[simp] theorem State.setOvr_bpSkip (g : Seg) : (s.setOvr g).bpSkip = s.bpSkip := rfl
@[simp] theorem State.setOvr_devices (g : Seg) : (s.setOvr g).devices = s.devices := rfl
@[simp] theorem State.setOvr_intr (g : Seg) : (s.setOvr g).intr = s.intr := rfl
@[simp] theorem State.setOvr_intaVector (g : Seg) : (s.setOvr g).intaVector = s.intaVector := rfl
@[simp] theorem State.setOvr_test (g : Seg) : (s.setOvr g).test = s.test := rfl
@[simp] theorem State.setOvr_breakpoints (g : Seg) : (s.setOvr g).breakpoints = s.breakpoints := rfl
@[simp] theorem State.setOvr_ctx (g : Seg) : (s.setOvr g).ctx = { s.ctx with ovr := some g } := rfl
@[simp] theorem State.setOvr_draws (g : Seg) : (s.setOvr g).draws = s.draws := rfl
@[simp] theorem State.setOvr_agenda (g : Seg) : (s.setOvr g).agenda = s.agenda := rfl
@[simp] theorem State.setOvr_reply (g : Seg) : (s.setOvr g).reply = s.reply := rfl

/-! ### setRep -/

@[simp] theorem State.setRep_regs (p : Rep) : (s.setRep p).regs = s.regs := rfl
@[simp] theorem State.setRep_segs (p : Rep) : (s.setRep p).segs = s.segs := rfl
@[simp] theorem State.setRep_pc (p : Rep) : (s.setRep p).pc = s.pc := rfl
@[simp] theorem State.setRep_flags (p : Rep) : (s.setRep p).flags = s.flags := rfl
@[simp] theorem State.setRep_queue (p : Rep) : (s.setRep p).queue = s.queue := rfl
@[simp] theorem State.setRep_tstate (p : Rep) : (s.setRep p).tstate = s.tstate := rfl
@[simp] theorem State.setRep_deliveryPending (p : Rep) : (s.setRep p).deliveryPending = s.deliveryPending := rfl
@[simp] theorem State.setRep_mem (p : Rep) : (s.setRep p).mem = s.mem := rfl
@[simp] theorem State.setRep_latch (p : Rep) : (s.setRep p).latch = s.latch := rfl
@[simp] theorem State.setRep_lastEa (p : Rep) : (s.setRep p).lastEa = s.lastEa := rfl
@[simp] theorem State.setRep_halted (p : Rep) : (s.setRep p).halted = s.halted := rfl
@[simp] theorem State.setRep_nmiLatched (p : Rep) : (s.setRep p).nmiLatched = s.nmiLatched := rfl
@[simp] theorem State.setRep_inhibit (p : Rep) : (s.setRep p).inhibit = s.inhibit := rfl
@[simp] theorem State.setRep_bpSkip (p : Rep) : (s.setRep p).bpSkip = s.bpSkip := rfl
@[simp] theorem State.setRep_devices (p : Rep) : (s.setRep p).devices = s.devices := rfl
@[simp] theorem State.setRep_intr (p : Rep) : (s.setRep p).intr = s.intr := rfl
@[simp] theorem State.setRep_intaVector (p : Rep) : (s.setRep p).intaVector = s.intaVector := rfl
@[simp] theorem State.setRep_test (p : Rep) : (s.setRep p).test = s.test := rfl
@[simp] theorem State.setRep_breakpoints (p : Rep) : (s.setRep p).breakpoints = s.breakpoints := rfl
@[simp] theorem State.setRep_ctx (p : Rep) : (s.setRep p).ctx = { s.ctx with rep := some p } := rfl
@[simp] theorem State.setRep_draws (p : Rep) : (s.setRep p).draws = s.draws := rfl
@[simp] theorem State.setRep_agenda (p : Rep) : (s.setRep p).agenda = s.agenda := rfl
@[simp] theorem State.setRep_reply (p : Rep) : (s.setRep p).reply = s.reply := rfl

/-! ### readLoc8 -/

@[simp] theorem State.readLoc8_regs (l : Loc Reg8) : ((s.readLoc8 l).2).regs = s.regs := by cases l <;> simp [State.readLoc8]
@[simp] theorem State.readLoc8_segs (l : Loc Reg8) : ((s.readLoc8 l).2).segs = s.segs := by cases l <;> simp [State.readLoc8]
@[simp] theorem State.readLoc8_pc (l : Loc Reg8) : ((s.readLoc8 l).2).pc = s.pc := by cases l <;> simp [State.readLoc8]
@[simp] theorem State.readLoc8_flags (l : Loc Reg8) : ((s.readLoc8 l).2).flags = s.flags := by cases l <;> simp [State.readLoc8]
@[simp] theorem State.readLoc8_queue (l : Loc Reg8) : ((s.readLoc8 l).2).queue = s.queue := by cases l <;> simp [State.readLoc8]
@[simp] theorem State.readLoc8_tstate (l : Loc Reg8) : ((s.readLoc8 l).2).tstate = s.tstate := by cases l <;> simp [State.readLoc8]
@[simp] theorem State.readLoc8_deliveryPending (l : Loc Reg8) : ((s.readLoc8 l).2).deliveryPending = s.deliveryPending := by cases l <;> simp [State.readLoc8]
@[simp] theorem State.readLoc8_mem (l : Loc Reg8) : ((s.readLoc8 l).2).mem = s.mem := by cases l <;> simp [State.readLoc8]
@[simp] theorem State.readLoc8_halted (l : Loc Reg8) : ((s.readLoc8 l).2).halted = s.halted := by cases l <;> simp [State.readLoc8]
@[simp] theorem State.readLoc8_nmiLatched (l : Loc Reg8) : ((s.readLoc8 l).2).nmiLatched = s.nmiLatched := by cases l <;> simp [State.readLoc8]
@[simp] theorem State.readLoc8_inhibit (l : Loc Reg8) : ((s.readLoc8 l).2).inhibit = s.inhibit := by cases l <;> simp [State.readLoc8]
@[simp] theorem State.readLoc8_bpSkip (l : Loc Reg8) : ((s.readLoc8 l).2).bpSkip = s.bpSkip := by cases l <;> simp [State.readLoc8]
@[simp] theorem State.readLoc8_devices (l : Loc Reg8) : ((s.readLoc8 l).2).devices = s.devices := by cases l <;> simp [State.readLoc8]
@[simp] theorem State.readLoc8_intr (l : Loc Reg8) : ((s.readLoc8 l).2).intr = s.intr := by cases l <;> simp [State.readLoc8]
@[simp] theorem State.readLoc8_intaVector (l : Loc Reg8) : ((s.readLoc8 l).2).intaVector = s.intaVector := by cases l <;> simp [State.readLoc8]
@[simp] theorem State.readLoc8_test (l : Loc Reg8) : ((s.readLoc8 l).2).test = s.test := by cases l <;> simp [State.readLoc8]
@[simp] theorem State.readLoc8_breakpoints (l : Loc Reg8) : ((s.readLoc8 l).2).breakpoints = s.breakpoints := by cases l <;> simp [State.readLoc8]
@[simp] theorem State.readLoc8_ctx (l : Loc Reg8) : ((s.readLoc8 l).2).ctx = s.ctx := by cases l <;> simp [State.readLoc8]
@[simp] theorem State.readLoc8_draws (l : Loc Reg8) : ((s.readLoc8 l).2).draws = s.draws := by cases l <;> simp [State.readLoc8]
@[simp] theorem State.readLoc8_agenda (l : Loc Reg8) : ((s.readLoc8 l).2).agenda = s.agenda := by cases l <;> simp [State.readLoc8]
@[simp] theorem State.readLoc8_reply (l : Loc Reg8) : ((s.readLoc8 l).2).reply = s.reply := by cases l <;> simp [State.readLoc8]

/-! ### readLoc16 -/

@[simp] theorem State.readLoc16_regs (l : Loc Reg16) : ((s.readLoc16 l).2).regs = s.regs := by cases l <;> simp [State.readLoc16]
@[simp] theorem State.readLoc16_segs (l : Loc Reg16) : ((s.readLoc16 l).2).segs = s.segs := by cases l <;> simp [State.readLoc16]
@[simp] theorem State.readLoc16_pc (l : Loc Reg16) : ((s.readLoc16 l).2).pc = s.pc := by cases l <;> simp [State.readLoc16]
@[simp] theorem State.readLoc16_flags (l : Loc Reg16) : ((s.readLoc16 l).2).flags = s.flags := by cases l <;> simp [State.readLoc16]
@[simp] theorem State.readLoc16_queue (l : Loc Reg16) : ((s.readLoc16 l).2).queue = s.queue := by cases l <;> simp [State.readLoc16]
@[simp] theorem State.readLoc16_tstate (l : Loc Reg16) : ((s.readLoc16 l).2).tstate = s.tstate := by cases l <;> simp [State.readLoc16]
@[simp] theorem State.readLoc16_deliveryPending (l : Loc Reg16) : ((s.readLoc16 l).2).deliveryPending = s.deliveryPending := by cases l <;> simp [State.readLoc16]
@[simp] theorem State.readLoc16_mem (l : Loc Reg16) : ((s.readLoc16 l).2).mem = s.mem := by cases l <;> simp [State.readLoc16]
@[simp] theorem State.readLoc16_halted (l : Loc Reg16) : ((s.readLoc16 l).2).halted = s.halted := by cases l <;> simp [State.readLoc16]
@[simp] theorem State.readLoc16_nmiLatched (l : Loc Reg16) : ((s.readLoc16 l).2).nmiLatched = s.nmiLatched := by cases l <;> simp [State.readLoc16]
@[simp] theorem State.readLoc16_inhibit (l : Loc Reg16) : ((s.readLoc16 l).2).inhibit = s.inhibit := by cases l <;> simp [State.readLoc16]
@[simp] theorem State.readLoc16_bpSkip (l : Loc Reg16) : ((s.readLoc16 l).2).bpSkip = s.bpSkip := by cases l <;> simp [State.readLoc16]
@[simp] theorem State.readLoc16_devices (l : Loc Reg16) : ((s.readLoc16 l).2).devices = s.devices := by cases l <;> simp [State.readLoc16]
@[simp] theorem State.readLoc16_intr (l : Loc Reg16) : ((s.readLoc16 l).2).intr = s.intr := by cases l <;> simp [State.readLoc16]
@[simp] theorem State.readLoc16_intaVector (l : Loc Reg16) : ((s.readLoc16 l).2).intaVector = s.intaVector := by cases l <;> simp [State.readLoc16]
@[simp] theorem State.readLoc16_test (l : Loc Reg16) : ((s.readLoc16 l).2).test = s.test := by cases l <;> simp [State.readLoc16]
@[simp] theorem State.readLoc16_breakpoints (l : Loc Reg16) : ((s.readLoc16 l).2).breakpoints = s.breakpoints := by cases l <;> simp [State.readLoc16]
@[simp] theorem State.readLoc16_ctx (l : Loc Reg16) : ((s.readLoc16 l).2).ctx = s.ctx := by cases l <;> simp [State.readLoc16]
@[simp] theorem State.readLoc16_draws (l : Loc Reg16) : ((s.readLoc16 l).2).draws = s.draws := by cases l <;> simp [State.readLoc16]
@[simp] theorem State.readLoc16_agenda (l : Loc Reg16) : ((s.readLoc16 l).2).agenda = s.agenda := by cases l <;> simp [State.readLoc16]
@[simp] theorem State.readLoc16_reply (l : Loc Reg16) : ((s.readLoc16 l).2).reply = s.reply := by cases l <;> simp [State.readLoc16]

/-! ### writeLoc8 -/

@[simp] theorem State.writeLoc8_segs (l : Loc Reg8) (v : Byte) : (s.writeLoc8 l v).segs = s.segs := by cases l <;> simp [State.writeLoc8]
@[simp] theorem State.writeLoc8_pc (l : Loc Reg8) (v : Byte) : (s.writeLoc8 l v).pc = s.pc := by cases l <;> simp [State.writeLoc8]
@[simp] theorem State.writeLoc8_flags (l : Loc Reg8) (v : Byte) : (s.writeLoc8 l v).flags = s.flags := by cases l <;> simp [State.writeLoc8]
@[simp] theorem State.writeLoc8_queue (l : Loc Reg8) (v : Byte) : (s.writeLoc8 l v).queue = s.queue := by cases l <;> simp [State.writeLoc8]
@[simp] theorem State.writeLoc8_tstate (l : Loc Reg8) (v : Byte) : (s.writeLoc8 l v).tstate = s.tstate := by cases l <;> simp [State.writeLoc8]
@[simp] theorem State.writeLoc8_deliveryPending (l : Loc Reg8) (v : Byte) : (s.writeLoc8 l v).deliveryPending = s.deliveryPending := by cases l <;> simp [State.writeLoc8]
@[simp] theorem State.writeLoc8_halted (l : Loc Reg8) (v : Byte) : (s.writeLoc8 l v).halted = s.halted := by cases l <;> simp [State.writeLoc8]
@[simp] theorem State.writeLoc8_nmiLatched (l : Loc Reg8) (v : Byte) : (s.writeLoc8 l v).nmiLatched = s.nmiLatched := by cases l <;> simp [State.writeLoc8]
@[simp] theorem State.writeLoc8_inhibit (l : Loc Reg8) (v : Byte) : (s.writeLoc8 l v).inhibit = s.inhibit := by cases l <;> simp [State.writeLoc8]
@[simp] theorem State.writeLoc8_bpSkip (l : Loc Reg8) (v : Byte) : (s.writeLoc8 l v).bpSkip = s.bpSkip := by cases l <;> simp [State.writeLoc8]
@[simp] theorem State.writeLoc8_devices (l : Loc Reg8) (v : Byte) : (s.writeLoc8 l v).devices = s.devices := by cases l <;> simp [State.writeLoc8]
@[simp] theorem State.writeLoc8_intr (l : Loc Reg8) (v : Byte) : (s.writeLoc8 l v).intr = s.intr := by cases l <;> simp [State.writeLoc8]
@[simp] theorem State.writeLoc8_intaVector (l : Loc Reg8) (v : Byte) : (s.writeLoc8 l v).intaVector = s.intaVector := by cases l <;> simp [State.writeLoc8]
@[simp] theorem State.writeLoc8_test (l : Loc Reg8) (v : Byte) : (s.writeLoc8 l v).test = s.test := by cases l <;> simp [State.writeLoc8]
@[simp] theorem State.writeLoc8_breakpoints (l : Loc Reg8) (v : Byte) : (s.writeLoc8 l v).breakpoints = s.breakpoints := by cases l <;> simp [State.writeLoc8]
@[simp] theorem State.writeLoc8_ctx (l : Loc Reg8) (v : Byte) : (s.writeLoc8 l v).ctx = s.ctx := by cases l <;> simp [State.writeLoc8]
@[simp] theorem State.writeLoc8_draws (l : Loc Reg8) (v : Byte) : (s.writeLoc8 l v).draws = s.draws := by cases l <;> simp [State.writeLoc8]
@[simp] theorem State.writeLoc8_agenda (l : Loc Reg8) (v : Byte) : (s.writeLoc8 l v).agenda = s.agenda := by cases l <;> simp [State.writeLoc8]
@[simp] theorem State.writeLoc8_reply (l : Loc Reg8) (v : Byte) : (s.writeLoc8 l v).reply = s.reply := by cases l <;> simp [State.writeLoc8]

/-! ### writeLoc16 -/

@[simp] theorem State.writeLoc16_segs (l : Loc Reg16) (v : Word) : (s.writeLoc16 l v).segs = s.segs := by cases l <;> simp [State.writeLoc16]
@[simp] theorem State.writeLoc16_pc (l : Loc Reg16) (v : Word) : (s.writeLoc16 l v).pc = s.pc := by cases l <;> simp [State.writeLoc16]
@[simp] theorem State.writeLoc16_flags (l : Loc Reg16) (v : Word) : (s.writeLoc16 l v).flags = s.flags := by cases l <;> simp [State.writeLoc16]
@[simp] theorem State.writeLoc16_queue (l : Loc Reg16) (v : Word) : (s.writeLoc16 l v).queue = s.queue := by cases l <;> simp [State.writeLoc16]
@[simp] theorem State.writeLoc16_tstate (l : Loc Reg16) (v : Word) : (s.writeLoc16 l v).tstate = s.tstate := by cases l <;> simp [State.writeLoc16]
@[simp] theorem State.writeLoc16_deliveryPending (l : Loc Reg16) (v : Word) : (s.writeLoc16 l v).deliveryPending = s.deliveryPending := by cases l <;> simp [State.writeLoc16]
@[simp] theorem State.writeLoc16_halted (l : Loc Reg16) (v : Word) : (s.writeLoc16 l v).halted = s.halted := by cases l <;> simp [State.writeLoc16]
@[simp] theorem State.writeLoc16_nmiLatched (l : Loc Reg16) (v : Word) : (s.writeLoc16 l v).nmiLatched = s.nmiLatched := by cases l <;> simp [State.writeLoc16]
@[simp] theorem State.writeLoc16_inhibit (l : Loc Reg16) (v : Word) : (s.writeLoc16 l v).inhibit = s.inhibit := by cases l <;> simp [State.writeLoc16]
@[simp] theorem State.writeLoc16_bpSkip (l : Loc Reg16) (v : Word) : (s.writeLoc16 l v).bpSkip = s.bpSkip := by cases l <;> simp [State.writeLoc16]
@[simp] theorem State.writeLoc16_devices (l : Loc Reg16) (v : Word) : (s.writeLoc16 l v).devices = s.devices := by cases l <;> simp [State.writeLoc16]
@[simp] theorem State.writeLoc16_intr (l : Loc Reg16) (v : Word) : (s.writeLoc16 l v).intr = s.intr := by cases l <;> simp [State.writeLoc16]
@[simp] theorem State.writeLoc16_intaVector (l : Loc Reg16) (v : Word) : (s.writeLoc16 l v).intaVector = s.intaVector := by cases l <;> simp [State.writeLoc16]
@[simp] theorem State.writeLoc16_test (l : Loc Reg16) (v : Word) : (s.writeLoc16 l v).test = s.test := by cases l <;> simp [State.writeLoc16]
@[simp] theorem State.writeLoc16_breakpoints (l : Loc Reg16) (v : Word) : (s.writeLoc16 l v).breakpoints = s.breakpoints := by cases l <;> simp [State.writeLoc16]
@[simp] theorem State.writeLoc16_ctx (l : Loc Reg16) (v : Word) : (s.writeLoc16 l v).ctx = s.ctx := by cases l <;> simp [State.writeLoc16]
@[simp] theorem State.writeLoc16_draws (l : Loc Reg16) (v : Word) : (s.writeLoc16 l v).draws = s.draws := by cases l <;> simp [State.writeLoc16]
@[simp] theorem State.writeLoc16_agenda (l : Loc Reg16) (v : Word) : (s.writeLoc16 l v).agenda = s.agenda := by cases l <;> simp [State.writeLoc16]
@[simp] theorem State.writeLoc16_reply (l : Loc Reg16) (v : Word) : (s.writeLoc16 l v).reply = s.reply := by cases l <;> simp [State.writeLoc16]

/-! ### fetchByte -/

@[simp] theorem State.fetchByte_regs : (s.fetchByte.2).regs = s.regs := by unfold State.fetchByte; split <;> rfl
@[simp] theorem State.fetchByte_segs : (s.fetchByte.2).segs = s.segs := by unfold State.fetchByte; split <;> rfl
@[simp] theorem State.fetchByte_flags : (s.fetchByte.2).flags = s.flags := by unfold State.fetchByte; split <;> rfl
@[simp] theorem State.fetchByte_tstate : (s.fetchByte.2).tstate = s.tstate := by unfold State.fetchByte; split <;> rfl
@[simp] theorem State.fetchByte_deliveryPending : (s.fetchByte.2).deliveryPending = s.deliveryPending := by unfold State.fetchByte; split <;> rfl
@[simp] theorem State.fetchByte_mem : (s.fetchByte.2).mem = s.mem := by unfold State.fetchByte; split <;> rfl
@[simp] theorem State.fetchByte_latch : (s.fetchByte.2).latch = s.latch := by unfold State.fetchByte; split <;> rfl
@[simp] theorem State.fetchByte_lastEa : (s.fetchByte.2).lastEa = s.lastEa := by unfold State.fetchByte; split <;> rfl
@[simp] theorem State.fetchByte_halted : (s.fetchByte.2).halted = s.halted := by unfold State.fetchByte; split <;> rfl
@[simp] theorem State.fetchByte_nmiLatched : (s.fetchByte.2).nmiLatched = s.nmiLatched := by unfold State.fetchByte; split <;> rfl
@[simp] theorem State.fetchByte_inhibit : (s.fetchByte.2).inhibit = s.inhibit := by unfold State.fetchByte; split <;> rfl
@[simp] theorem State.fetchByte_bpSkip : (s.fetchByte.2).bpSkip = s.bpSkip := by unfold State.fetchByte; split <;> rfl
@[simp] theorem State.fetchByte_devices : (s.fetchByte.2).devices = s.devices := by unfold State.fetchByte; split <;> rfl
@[simp] theorem State.fetchByte_intr : (s.fetchByte.2).intr = s.intr := by unfold State.fetchByte; split <;> rfl
@[simp] theorem State.fetchByte_intaVector : (s.fetchByte.2).intaVector = s.intaVector := by unfold State.fetchByte; split <;> rfl
@[simp] theorem State.fetchByte_test : (s.fetchByte.2).test = s.test := by unfold State.fetchByte; split <;> rfl
@[simp] theorem State.fetchByte_breakpoints : (s.fetchByte.2).breakpoints = s.breakpoints := by unfold State.fetchByte; split <;> rfl
@[simp] theorem State.fetchByte_ctx : (s.fetchByte.2).ctx = s.ctx := by unfold State.fetchByte; split <;> rfl
@[simp] theorem State.fetchByte_draws : (s.fetchByte.2).draws = s.draws := by unfold State.fetchByte; split <;> rfl
@[simp] theorem State.fetchByte_agenda : (s.fetchByte.2).agenda = s.agenda := by unfold State.fetchByte; split <;> rfl
@[simp] theorem State.fetchByte_reply : (s.fetchByte.2).reply = s.reply := by unfold State.fetchByte; split <;> rfl

/-! ### Construction -/

@[simp] theorem Device.initial_fdc (f : Fdc) : (Device.fdc f).initial = .fdc Fdc.initial := rfl
@[simp] theorem Device.initial_other (id : Nat) (ports : List Word) (st : Nat) :
    (Device.other id ports st).initial = .other id ports (Config.otherInit id) := rfl
@[simp] theorem State.construct_devices (ds : List Device) : (State.construct ds).devices = ds.map Device.initial := rfl

end Sys2Proof.Machine
end

