-- ==== Sys2Proof/Laws/Memory.lean ====
section
/-! SUPPORT. The laws of memory: a read after a write, the canonical form, and that a host write keeps it. -/

namespace Sys2Proof.Machine

/-- Whether every listed address is at least `a`. -/
def lowBound (a : Nat) : List Host.Cell → Prop
  | [] => True
  | (k, _) :: _ => a ≤ k

theorem Memory.wf_cons (k : Nat) (v : Byte) (m : List Host.Cell) :
    Memory.wf ((k, v) :: m) = true ↔ k < 0x100000 ∧ v ≠ 0 ∧ lowBound (k + 1) m ∧ Memory.wf m = true := by
  cases m with
  | nil => simp [Memory.wf, lowBound]
  | cons c m =>
    obtain ⟨k', v'⟩ := c
    simp only [Memory.wf, lowBound, Bool.and_eq_true, decide_eq_true_eq, bne_iff_ne, ne_eq]
    constructor
    · rintro ⟨⟨h1, h2⟩, h3⟩
      have : k' < 0x100000 := by
        cases m with
        | nil => simp [Memory.wf] at h3; exact h3.1
        | cons c m => exact Memory.lt_of_wf _ _ _ h3
      exact ⟨by omega, h2, h1, h3⟩
    · rintro ⟨h1, h2, h3, h4⟩
      exact ⟨⟨h3, h2⟩, h4⟩
where
  /-- A listed address of a well-formed memory is in range. -/
  Memory.lt_of_wf (k : Nat) (v : Byte) : (m : List Host.Cell) → Memory.wf ((k, v) :: m) = true → k < 0x100000
    | [], h => by simp [Memory.wf] at h; exact h.1
    | (k', v') :: m, h => by
      simp only [Memory.wf, Bool.and_eq_true, decide_eq_true_eq] at h
      have := Memory.lt_of_wf k' v' m h.2
      omega

/-- Below every listed address a byte reads as zero. -/
theorem readMem_of_lowBound (a b : Nat) (m : List Host.Cell) (hw : Memory.wf m = true) (h : lowBound b m) (hab : a < b) :
    readMem m a = 0 := by
  induction m generalizing b with
  | nil => rfl
  | cons c m ih =>
    obtain ⟨k, v⟩ := c
    rw [Memory.wf_cons] at hw
    simp only [lowBound] at h
    rw [readMem, if_neg (by omega)]
    exact ih (k + 1) hw.2.2.2 hw.2.2.1 (by omega)

theorem lowBound_mono {a b : Nat} (hab : a ≤ b) {m : List Host.Cell} (h : lowBound b m) : lowBound a m := by
  cases m with
  | nil => trivial
  | cons c m => obtain ⟨k, v⟩ := c; simp only [lowBound] at *; omega

theorem lowBound_writeMem (a b : Nat) (v : Byte) (m : List Host.Cell) (hw : Memory.wf m = true) (h : lowBound b m)
    (hab : b ≤ a) : lowBound b (writeMem m a v) := by
  cases m with
  | nil => simp only [writeMem]; split <;> simp [lowBound, hab]
  | cons c m =>
    obtain ⟨k, w⟩ := c
    rw [Memory.wf_cons] at hw
    simp only [lowBound] at h
    simp only [writeMem]
    split
    · split <;> simp [lowBound, hab, h]
    · split
      · split
        · exact lowBound_mono (by omega) hw.2.2.1
        · simp [lowBound, hab]
      · simpa [lowBound] using h

/-- A write keeps the canonical form. -/
theorem writeMem_wf (m : List Host.Cell) (a : Nat) (v : Byte) (hw : Memory.wf m = true) (ha : a < 0x100000) :
    Memory.wf (writeMem m a v) = true := by
  induction m with
  | nil =>
    simp only [writeMem]
    split
    · rfl
    · next h => simp only [Memory.wf, ha, decide_true, Bool.true_and, bne_iff_ne, ne_eq]; exact h
  | cons c m ih =>
    obtain ⟨k, w⟩ := c
    have hw' := (Memory.wf_cons k w m).mp hw
    simp only [writeMem]
    split
    · split
      · exact hw
      · next h1 h2 => exact (Memory.wf_cons _ _ _).mpr ⟨ha, h2, by simp only [lowBound]; omega, hw⟩
    · split
      · next h1 h2 =>
        subst h2
        split
        · exact hw'.2.2.2
        · next h3 => exact (Memory.wf_cons _ _ _).mpr ⟨ha, h3, hw'.2.2.1, hw'.2.2.2⟩
      · exact (Memory.wf_cons _ _ _).mpr
          ⟨hw'.1, hw'.2.1, lowBound_writeMem _ _ _ _ hw'.2.2.2 hw'.2.2.1 (by omega), ih hw'.2.2.2⟩

/-- A read after a write. -/
theorem readMem_writeMem (m : List Host.Cell) (a : Nat) (v : Byte) (b : Nat) (hw : Memory.wf m = true) :
    readMem (writeMem m a v) b = if b = a then v else readMem m b := by
  induction m with
  | nil =>
    simp only [writeMem]
    split
    · next h => split <;> simp [readMem, h]
    · simp only [readMem]
      by_cases h : a = b
      · simp [h]
      · rw [if_neg h, if_neg (Ne.symm h)]
  | cons c m ih =>
    obtain ⟨k, w⟩ := c
    have hw' := (Memory.wf_cons k w m).mp hw
    simp only [writeMem]
    split
    · next h1 =>
      have h0 : readMem ((k, w) :: m) a = 0 := readMem_of_lowBound a (a + 1) _ hw (by simp only [lowBound]; omega) (by omega)
      split
      · next h2 =>
        split
        · next h3 => rw [h3, h0, h2]
        · rfl
      · rw [readMem]
        by_cases h : a = b
        · rw [if_pos h, if_pos h.symm]
        · rw [if_neg h, if_neg (Ne.symm h)]
    · split
      · next h1 h2 =>
        subst h2
        split
        · next h3 =>
          by_cases h : b = a
          · rw [if_pos h, h3, h]; exact readMem_of_lowBound _ _ _ hw'.2.2.2 hw'.2.2.1 (by omega)
          · rw [if_neg h]
            conv => rhs; rw [readMem, if_neg (Ne.symm h)]
        · rw [readMem]
          by_cases h : a = b
          · rw [if_pos h, if_pos h.symm]
          · rw [if_neg h, if_neg (Ne.symm h), readMem, if_neg h]
      · next h1 h2 =>
        rw [readMem, ih hw'.2.2.2, readMem]
        by_cases h : k = b
        · rw [if_pos h, if_neg (by omega), if_pos h]
        · rw [if_neg h, if_neg h]

/-- The memory of reset has the canonical form. -/
theorem reset_mem_wf : Memory.wf State.reset.mem = true := rfl

/-- `mem[b]` after `mem[a] <- v`, in a memory of canonical form. -/
theorem State.memByte_setMemByte (s : State) (a : Phys) (v : Byte) (b : Phys) (hw : Memory.wf s.mem = true) :
    (s.setMemByte a v).memByte b = if b = a then v else s.memByte b := by
  simp only [State.memByte, State.setMemByte_mem, readMem_writeMem _ _ _ _ hw, BitVec.toNat_inj]

theorem State.setMemByte_wf (s : State) (a : Phys) (v : Byte) (hw : Memory.wf s.mem = true) :
    Memory.wf (s.setMemByte a v).mem = true := by
  rw [State.setMemByte_mem]; exact writeMem_wf _ _ _ hw a.isLt

theorem State.write8_wf (s : State) (x o : Word) (v : Byte) (hw : Memory.wf s.mem = true) :
    Memory.wf (s.write8 x o v).mem = true := by
  rw [State.write8_mem]; exact writeMem_wf _ _ _ hw (phys x o).isLt

theorem State.write16_wf (s : State) (x o v : Word) (hw : Memory.wf s.mem = true) :
    Memory.wf (s.write16 x o v).mem = true := by
  rw [State.write16_mem]
  exact writeMem_wf _ _ _ (writeMem_wf _ _ _ hw (phys x o).isLt) (phys x (o + 1)).isLt

theorem State.push16_wf (s : State) (v : Word) (hw : Memory.wf s.mem = true) : Memory.wf (s.push16 v).mem = true := by
  rw [State.push16]; exact State.write16_wf _ _ _ _ (by simpa using hw)

/-- A byte after `MemWrite(x:o, 1, v)`. -/
theorem State.memByte_write8 (s : State) (x o : Word) (v : Byte) (b : Phys) (hw : Memory.wf s.mem = true) :
    (s.write8 x o v).memByte b = if b = phys x o then v else s.memByte b := by
  simp only [State.memByte, State.write8_mem, readMem_writeMem _ _ _ _ hw, BitVec.toNat_inj]

/-- The two bytes of a word are never one byte. -/
theorem phys_succ_ne (x o : Word) : phys x (o + 1) ≠ phys x o := by
  intro h
  have := congrArg BitVec.toNat h
  simp only [phys, BitVec.toNat_setWidth, BitVec.toNat_add, BitVec.toNat_shiftLeft, Nat.shiftLeft_eq] at this
  have hx := x.isLt
  have ho := o.isLt
  have h1 : (1 : Word).toNat = 1 := rfl
  simp only [h1] at this
  omega

/-- A byte after `MemWrite(x:o, 2, v)`. -/
theorem State.memByte_write16 (s : State) (x o v : Word) (b : Phys) (hw : Memory.wf s.mem = true) :
    (s.write16 x o v).memByte b =
      if b = phys x (o + 1) then hi8 v else if b = phys x o then lo8 v else s.memByte b := by
  rw [State.write16, State.memByte_write8 _ _ _ _ _ (State.write8_wf _ _ _ _ hw), State.memByte_write8 _ _ _ _ _ hw]

/-- A host write of bytes in range keeps the canonical form. -/
theorem writeBytesAt_wf (bs : List Byte) (a : Nat) (m : List Host.Cell) (hw : Memory.wf m = true)
    (h : a + bs.length ≤ 0x100000) : Memory.wf (writeBytesAt bs a m) = true := by
  induction bs generalizing a m with
  | nil => exact hw
  | cons b bs ih =>
    simp only [List.length_cons] at h
    exact ih (a + 1) _ (writeMem_wf _ _ _ hw (by omega)) (by omega)

end Sys2Proof.Machine
end

