-- ==== Sys2Proof/Laws/Access.lean ====
section
/-! SUPPORT. What each update of State does to what the accessors read: registers, flags, memory bytes and IP. -/

set_option Elab.async false

namespace Sys2Proof.Machine

variable (s : State)

/-! ## Accessors an update does not touch -/

@[simp] theorem State.seg_setReg16 (r : Reg16) (v : Word) (x : Seg) : (s.setReg16 r v).seg x = s.seg x := by simp [State.seg]
@[simp] theorem State.flag_setReg16 (r : Reg16) (v : Word) (x : Flag) : (s.setReg16 r v).flag x = s.flag x := by simp [State.flag]
@[simp] theorem State.memByte_setReg16 (r : Reg16) (v : Word) (x : Phys) : (s.setReg16 r v).memByte x = s.memByte x := by simp [State.memByte]
@[simp] theorem State.ip_setReg16 (r : Reg16) (v : Word) : (s.setReg16 r v).ip = s.ip := by simp [State.ip]
@[simp] theorem State.ovr_setReg16 (r : Reg16) (v : Word) (x : Seg) : (s.setReg16 r v).ovr x = s.ovr x := by simp [State.ovr]
@[simp] theorem State.seg_setReg8 (r : Reg8) (v : Byte) (x : Seg) : (s.setReg8 r v).seg x = s.seg x := by simp [State.seg]
@[simp] theorem State.flag_setReg8 (r : Reg8) (v : Byte) (x : Flag) : (s.setReg8 r v).flag x = s.flag x := by simp [State.flag]
@[simp] theorem State.memByte_setReg8 (r : Reg8) (v : Byte) (x : Phys) : (s.setReg8 r v).memByte x = s.memByte x := by simp [State.memByte]
@[simp] theorem State.ip_setReg8 (r : Reg8) (v : Byte) : (s.setReg8 r v).ip = s.ip := by simp [State.ip]
@[simp] theorem State.ovr_setReg8 (r : Reg8) (v : Byte) (x : Seg) : (s.setReg8 r v).ovr x = s.ovr x := by simp [State.ovr]
@[simp] theorem State.reg16_setSeg (g : Seg) (v : Word) (x : Reg16) : (s.setSeg g v).reg16 x = s.reg16 x := by simp [State.reg16]
@[simp] theorem State.reg8_setSeg (g : Seg) (v : Word) (x : Reg8) : (s.setSeg g v).reg8 x = s.reg8 x := by simp [State.reg8, State.reg16]
@[simp] theorem State.flag_setSeg (g : Seg) (v : Word) (x : Flag) : (s.setSeg g v).flag x = s.flag x := by simp [State.flag]
@[simp] theorem State.memByte_setSeg (g : Seg) (v : Word) (x : Phys) : (s.setSeg g v).memByte x = s.memByte x := by simp [State.memByte]
@[simp] theorem State.ip_setSeg (g : Seg) (v : Word) : (s.setSeg g v).ip = s.ip := by simp [State.ip]
@[simp] theorem State.ovr_setSeg (g : Seg) (v : Word) (x : Seg) : (s.setSeg g v).ovr x = s.ovr x := by simp [State.ovr]
@[simp] theorem State.reg16_setFlag (f : Flag) (b : Bool) (x : Reg16) : (s.setFlag f b).reg16 x = s.reg16 x := by simp [State.reg16]
@[simp] theorem State.reg8_setFlag (f : Flag) (b : Bool) (x : Reg8) : (s.setFlag f b).reg8 x = s.reg8 x := by simp [State.reg8, State.reg16]
@[simp] theorem State.seg_setFlag (f : Flag) (b : Bool) (x : Seg) : (s.setFlag f b).seg x = s.seg x := by simp [State.seg]
@[simp] theorem State.memByte_setFlag (f : Flag) (b : Bool) (x : Phys) : (s.setFlag f b).memByte x = s.memByte x := by simp [State.memByte]
@[simp] theorem State.ip_setFlag (f : Flag) (b : Bool) : (s.setFlag f b).ip = s.ip := by simp [State.ip]
@[simp] theorem State.ovr_setFlag (f : Flag) (b : Bool) (x : Seg) : (s.setFlag f b).ovr x = s.ovr x := by simp [State.ovr]
@[simp] theorem State.reg16_writeFlags (v : Word) (x : Reg16) : (s.writeFlags v).reg16 x = s.reg16 x := by simp [State.reg16]
@[simp] theorem State.reg8_writeFlags (v : Word) (x : Reg8) : (s.writeFlags v).reg8 x = s.reg8 x := by simp [State.reg8, State.reg16]
@[simp] theorem State.seg_writeFlags (v : Word) (x : Seg) : (s.writeFlags v).seg x = s.seg x := by simp [State.seg]
@[simp] theorem State.memByte_writeFlags (v : Word) (x : Phys) : (s.writeFlags v).memByte x = s.memByte x := by simp [State.memByte]
@[simp] theorem State.ip_writeFlags (v : Word) : (s.writeFlags v).ip = s.ip := by simp [State.ip]
@[simp] theorem State.ovr_writeFlags (v : Word) (x : Seg) : (s.writeFlags v).ovr x = s.ovr x := by simp [State.ovr]
@[simp] theorem State.reg16_draw (x : Reg16) : (s.draw.2).reg16 x = s.reg16 x := by simp [State.reg16]
@[simp] theorem State.reg8_draw (x : Reg8) : (s.draw.2).reg8 x = s.reg8 x := by simp [State.reg8, State.reg16]
@[simp] theorem State.seg_draw (x : Seg) : (s.draw.2).seg x = s.seg x := by simp [State.seg]
@[simp] theorem State.flag_draw (x : Flag) : (s.draw.2).flag x = s.flag x := by simp [State.flag]
@[simp] theorem State.memByte_draw (x : Phys) : (s.draw.2).memByte x = s.memByte x := by simp [State.memByte]
@[simp] theorem State.ip_draw : (s.draw.2).ip = s.ip := by simp [State.ip]
@[simp] theorem State.ovr_draw (x : Seg) : (s.draw.2).ovr x = s.ovr x := by simp [State.ovr]
@[simp] theorem State.reg16_drawFlag (f : Flag) (x : Reg16) : (s.drawFlag f).reg16 x = s.reg16 x := by simp [State.reg16]
@[simp] theorem State.reg8_drawFlag (f : Flag) (x : Reg8) : (s.drawFlag f).reg8 x = s.reg8 x := by simp [State.reg8, State.reg16]
@[simp] theorem State.seg_drawFlag (f : Flag) (x : Seg) : (s.drawFlag f).seg x = s.seg x := by simp [State.seg]
@[simp] theorem State.memByte_drawFlag (f : Flag) (x : Phys) : (s.drawFlag f).memByte x = s.memByte x := by simp [State.memByte]
@[simp] theorem State.ip_drawFlag (f : Flag) : (s.drawFlag f).ip = s.ip := by simp [State.ip]
@[simp] theorem State.ovr_drawFlag (f : Flag) (x : Seg) : (s.drawFlag f).ovr x = s.ovr x := by simp [State.ovr]
@[simp] theorem State.reg16_setSzp {w : Nat} (r : BitVec w) (x : Reg16) : (s.setSzp r).reg16 x = s.reg16 x := by simp [State.reg16]
@[simp] theorem State.reg8_setSzp {w : Nat} (r : BitVec w) (x : Reg8) : (s.setSzp r).reg8 x = s.reg8 x := by simp [State.reg8, State.reg16]
@[simp] theorem State.seg_setSzp {w : Nat} (r : BitVec w) (x : Seg) : (s.setSzp r).seg x = s.seg x := by simp [State.seg]
@[simp] theorem State.memByte_setSzp {w : Nat} (r : BitVec w) (x : Phys) : (s.setSzp r).memByte x = s.memByte x := by simp [State.memByte]
@[simp] theorem State.ip_setSzp {w : Nat} (r : BitVec w) : (s.setSzp r).ip = s.ip := by simp [State.ip]
@[simp] theorem State.ovr_setSzp {w : Nat} (r : BitVec w) (x : Seg) : (s.setSzp r).ovr x = s.ovr x := by simp [State.ovr]
@[simp] theorem State.reg16_addC {w : Nat} (a b : BitVec w) (c : Bool) (x : Reg16) : ((s.addC a b c).2).reg16 x = s.reg16 x := by simp [State.reg16]
@[simp] theorem State.reg8_addC {w : Nat} (a b : BitVec w) (c : Bool) (x : Reg8) : ((s.addC a b c).2).reg8 x = s.reg8 x := by simp [State.reg8, State.reg16]
@[simp] theorem State.seg_addC {w : Nat} (a b : BitVec w) (c : Bool) (x : Seg) : ((s.addC a b c).2).seg x = s.seg x := by simp [State.seg]
@[simp] theorem State.memByte_addC {w : Nat} (a b : BitVec w) (c : Bool) (x : Phys) : ((s.addC a b c).2).memByte x = s.memByte x := by simp [State.memByte]
@[simp] theorem State.ip_addC {w : Nat} (a b : BitVec w) (c : Bool) : ((s.addC a b c).2).ip = s.ip := by simp [State.ip]
@[simp] theorem State.ovr_addC {w : Nat} (a b : BitVec w) (c : Bool) (x : Seg) : ((s.addC a b c).2).ovr x = s.ovr x := by simp [State.ovr]
@[simp] theorem State.reg16_subB {w : Nat} (a b : BitVec w) (c : Bool) (x : Reg16) : ((s.subB a b c).2).reg16 x = s.reg16 x := by simp [State.reg16]
@[simp] theorem State.reg8_subB {w : Nat} (a b : BitVec w) (c : Bool) (x : Reg8) : ((s.subB a b c).2).reg8 x = s.reg8 x := by simp [State.reg8, State.reg16]
@[simp] theorem State.seg_subB {w : Nat} (a b : BitVec w) (c : Bool) (x : Seg) : ((s.subB a b c).2).seg x = s.seg x := by simp [State.seg]
@[simp] theorem State.memByte_subB {w : Nat} (a b : BitVec w) (c : Bool) (x : Phys) : ((s.subB a b c).2).memByte x = s.memByte x := by simp [State.memByte]
@[simp] theorem State.ip_subB {w : Nat} (a b : BitVec w) (c : Bool) : ((s.subB a b c).2).ip = s.ip := by simp [State.ip]
@[simp] theorem State.ovr_subB {w : Nat} (a b : BitVec w) (c : Bool) (x : Seg) : ((s.subB a b c).2).ovr x = s.ovr x := by simp [State.ovr]
@[simp] theorem State.reg16_logicFlags {w : Nat} (r : BitVec w) (x : Reg16) : (s.logicFlags r).reg16 x = s.reg16 x := by simp [State.reg16]
@[simp] theorem State.reg8_logicFlags {w : Nat} (r : BitVec w) (x : Reg8) : (s.logicFlags r).reg8 x = s.reg8 x := by simp [State.reg8, State.reg16]
@[simp] theorem State.seg_logicFlags {w : Nat} (r : BitVec w) (x : Seg) : (s.logicFlags r).seg x = s.seg x := by simp [State.seg]
@[simp] theorem State.memByte_logicFlags {w : Nat} (r : BitVec w) (x : Phys) : (s.logicFlags r).memByte x = s.memByte x := by simp [State.memByte]
@[simp] theorem State.ip_logicFlags {w : Nat} (r : BitVec w) : (s.logicFlags r).ip = s.ip := by simp [State.ip]
@[simp] theorem State.ovr_logicFlags {w : Nat} (r : BitVec w) (x : Seg) : (s.logicFlags r).ovr x = s.ovr x := by simp [State.ovr]
@[simp] theorem State.reg16_pa (y o : Word) (x : Reg16) : ((s.pa y o).2).reg16 x = s.reg16 x := by simp [State.reg16]
@[simp] theorem State.reg8_pa (y o : Word) (x : Reg8) : ((s.pa y o).2).reg8 x = s.reg8 x := by simp [State.reg8, State.reg16]
@[simp] theorem State.seg_pa (y o : Word) (x : Seg) : ((s.pa y o).2).seg x = s.seg x := by simp [State.seg]
@[simp] theorem State.flag_pa (y o : Word) (x : Flag) : ((s.pa y o).2).flag x = s.flag x := by simp [State.flag]
@[simp] theorem State.memByte_pa (y o : Word) (x : Phys) : ((s.pa y o).2).memByte x = s.memByte x := by simp [State.memByte]
@[simp] theorem State.ip_pa (y o : Word) : ((s.pa y o).2).ip = s.ip := by simp [State.ip]
@[simp] theorem State.ovr_pa (y o : Word) (x : Seg) : ((s.pa y o).2).ovr x = s.ovr x := by simp [State.ovr]
@[simp] theorem State.reg16_setMemByte (a : Phys) (b : Byte) (x : Reg16) : (s.setMemByte a b).reg16 x = s.reg16 x := by simp [State.reg16]
@[simp] theorem State.reg8_setMemByte (a : Phys) (b : Byte) (x : Reg8) : (s.setMemByte a b).reg8 x = s.reg8 x := by simp [State.reg8, State.reg16]
@[simp] theorem State.seg_setMemByte (a : Phys) (b : Byte) (x : Seg) : (s.setMemByte a b).seg x = s.seg x := by simp [State.seg]
@[simp] theorem State.flag_setMemByte (a : Phys) (b : Byte) (x : Flag) : (s.setMemByte a b).flag x = s.flag x := by simp [State.flag]
@[simp] theorem State.ip_setMemByte (a : Phys) (b : Byte) : (s.setMemByte a b).ip = s.ip := by simp [State.ip]
@[simp] theorem State.ovr_setMemByte (a : Phys) (b : Byte) (x : Seg) : (s.setMemByte a b).ovr x = s.ovr x := by simp [State.ovr]
@[simp] theorem State.reg16_read8 (y o : Word) (x : Reg16) : ((s.read8 y o).2).reg16 x = s.reg16 x := by simp [State.reg16]
@[simp] theorem State.reg8_read8 (y o : Word) (x : Reg8) : ((s.read8 y o).2).reg8 x = s.reg8 x := by simp [State.reg8, State.reg16]
@[simp] theorem State.seg_read8 (y o : Word) (x : Seg) : ((s.read8 y o).2).seg x = s.seg x := by simp [State.seg]
@[simp] theorem State.flag_read8 (y o : Word) (x : Flag) : ((s.read8 y o).2).flag x = s.flag x := by simp [State.flag]
@[simp] theorem State.memByte_read8 (y o : Word) (x : Phys) : ((s.read8 y o).2).memByte x = s.memByte x := by simp [State.memByte]
@[simp] theorem State.ip_read8 (y o : Word) : ((s.read8 y o).2).ip = s.ip := by simp [State.ip]
@[simp] theorem State.ovr_read8 (y o : Word) (x : Seg) : ((s.read8 y o).2).ovr x = s.ovr x := by simp [State.ovr]
@[simp] theorem State.reg16_read16 (y o : Word) (x : Reg16) : ((s.read16 y o).2).reg16 x = s.reg16 x := by simp [State.reg16]
@[simp] theorem State.reg8_read16 (y o : Word) (x : Reg8) : ((s.read16 y o).2).reg8 x = s.reg8 x := by simp [State.reg8, State.reg16]
@[simp] theorem State.seg_read16 (y o : Word) (x : Seg) : ((s.read16 y o).2).seg x = s.seg x := by simp [State.seg]
@[simp] theorem State.flag_read16 (y o : Word) (x : Flag) : ((s.read16 y o).2).flag x = s.flag x := by simp [State.flag]
@[simp] theorem State.memByte_read16 (y o : Word) (x : Phys) : ((s.read16 y o).2).memByte x = s.memByte x := by simp [State.memByte]
@[simp] theorem State.ip_read16 (y o : Word) : ((s.read16 y o).2).ip = s.ip := by simp [State.ip]
@[simp] theorem State.ovr_read16 (y o : Word) (x : Seg) : ((s.read16 y o).2).ovr x = s.ovr x := by simp [State.ovr]
@[simp] theorem State.reg16_write8 (y o : Word) (v : Byte) (x : Reg16) : (s.write8 y o v).reg16 x = s.reg16 x := by simp [State.reg16]
@[simp] theorem State.reg8_write8 (y o : Word) (v : Byte) (x : Reg8) : (s.write8 y o v).reg8 x = s.reg8 x := by simp [State.reg8, State.reg16]
@[simp] theorem State.seg_write8 (y o : Word) (v : Byte) (x : Seg) : (s.write8 y o v).seg x = s.seg x := by simp [State.seg]
@[simp] theorem State.flag_write8 (y o : Word) (v : Byte) (x : Flag) : (s.write8 y o v).flag x = s.flag x := by simp [State.flag]
@[simp] theorem State.ip_write8 (y o : Word) (v : Byte) : (s.write8 y o v).ip = s.ip := by simp [State.ip]
@[simp] theorem State.ovr_write8 (y o : Word) (v : Byte) (x : Seg) : (s.write8 y o v).ovr x = s.ovr x := by simp [State.ovr]
@[simp] theorem State.reg16_write16 (y o v : Word) (x : Reg16) : (s.write16 y o v).reg16 x = s.reg16 x := by simp [State.reg16]
@[simp] theorem State.reg8_write16 (y o v : Word) (x : Reg8) : (s.write16 y o v).reg8 x = s.reg8 x := by simp [State.reg8, State.reg16]
@[simp] theorem State.seg_write16 (y o v : Word) (x : Seg) : (s.write16 y o v).seg x = s.seg x := by simp [State.seg]
@[simp] theorem State.flag_write16 (y o v : Word) (x : Flag) : (s.write16 y o v).flag x = s.flag x := by simp [State.flag]
@[simp] theorem State.ip_write16 (y o v : Word) : (s.write16 y o v).ip = s.ip := by simp [State.ip]
@[simp] theorem State.ovr_write16 (y o v : Word) (x : Seg) : (s.write16 y o v).ovr x = s.ovr x := by simp [State.ovr]
@[simp] theorem State.reg16_flush (x : Reg16) : (s.flush).reg16 x = s.reg16 x := by simp [State.reg16]
@[simp] theorem State.reg8_flush (x : Reg8) : (s.flush).reg8 x = s.reg8 x := by simp [State.reg8, State.reg16]
@[simp] theorem State.seg_flush (x : Seg) : (s.flush).seg x = s.seg x := by simp [State.seg]
@[simp] theorem State.flag_flush (x : Flag) : (s.flush).flag x = s.flag x := by simp [State.flag]
@[simp] theorem State.memByte_flush (x : Phys) : (s.flush).memByte x = s.memByte x := by simp [State.memByte]
@[simp] theorem State.ovr_flush (x : Seg) : (s.flush).ovr x = s.ovr x := by simp [State.ovr]
@[simp] theorem State.reg16_jump (t : Word) (x : Reg16) : (s.jump t).reg16 x = s.reg16 x := by simp [State.reg16]
@[simp] theorem State.reg8_jump (t : Word) (x : Reg8) : (s.jump t).reg8 x = s.reg8 x := by simp [State.reg8, State.reg16]
@[simp] theorem State.seg_jump (t : Word) (x : Seg) : (s.jump t).seg x = s.seg x := by simp [State.seg]
@[simp] theorem State.flag_jump (t : Word) (x : Flag) : (s.jump t).flag x = s.flag x := by simp [State.flag]
@[simp] theorem State.memByte_jump (t : Word) (x : Phys) : (s.jump t).memByte x = s.memByte x := by simp [State.memByte]
@[simp] theorem State.ovr_jump (t : Word) (x : Seg) : (s.jump t).ovr x = s.ovr x := by simp [State.ovr]
@[simp] theorem State.reg16_farJump (y o : Word) (x : Reg16) : (s.farJump y o).reg16 x = s.reg16 x := by simp [State.reg16]
@[simp] theorem State.reg8_farJump (y o : Word) (x : Reg8) : (s.farJump y o).reg8 x = s.reg8 x := by simp [State.reg8, State.reg16]
@[simp] theorem State.flag_farJump (y o : Word) (x : Flag) : (s.farJump y o).flag x = s.flag x := by simp [State.flag]
@[simp] theorem State.memByte_farJump (y o : Word) (x : Phys) : (s.farJump y o).memByte x = s.memByte x := by simp [State.memByte]
@[simp] theorem State.ovr_farJump (y o : Word) (x : Seg) : (s.farJump y o).ovr x = s.ovr x := by simp [State.ovr]
@[simp] theorem State.seg_push16 (v : Word) (x : Seg) : (s.push16 v).seg x = s.seg x := by simp [State.seg]
@[simp] theorem State.flag_push16 (v : Word) (x : Flag) : (s.push16 v).flag x = s.flag x := by simp [State.flag]
@[simp] theorem State.ip_push16 (v : Word) : (s.push16 v).ip = s.ip := by simp [State.ip]
@[simp] theorem State.ovr_push16 (v : Word) (x : Seg) : (s.push16 v).ovr x = s.ovr x := by simp [State.ovr]
@[simp] theorem State.seg_pop16 (x : Seg) : (s.pop16.2).seg x = s.seg x := by simp [State.seg]
@[simp] theorem State.flag_pop16 (x : Flag) : (s.pop16.2).flag x = s.flag x := by simp [State.flag]
@[simp] theorem State.memByte_pop16 (x : Phys) : (s.pop16.2).memByte x = s.memByte x := by simp [State.memByte]
@[simp] theorem State.ip_pop16 : (s.pop16.2).ip = s.ip := by simp [State.ip]
@[simp] theorem State.ovr_pop16 (x : Seg) : (s.pop16.2).ovr x = s.ovr x := by simp [State.ovr]
@[simp] theorem State.reg16_setOvr (g : Seg) (x : Reg16) : (s.setOvr g).reg16 x = s.reg16 x := by simp [State.reg16]
@[simp] theorem State.reg8_setOvr (g : Seg) (x : Reg8) : (s.setOvr g).reg8 x = s.reg8 x := by simp [State.reg8, State.reg16]
@[simp] theorem State.seg_setOvr (g : Seg) (x : Seg) : (s.setOvr g).seg x = s.seg x := by simp [State.seg]
@[simp] theorem State.flag_setOvr (g : Seg) (x : Flag) : (s.setOvr g).flag x = s.flag x := by simp [State.flag]
@[simp] theorem State.memByte_setOvr (g : Seg) (x : Phys) : (s.setOvr g).memByte x = s.memByte x := by simp [State.memByte]
@[simp] theorem State.ip_setOvr (g : Seg) : (s.setOvr g).ip = s.ip := by simp [State.ip]
@[simp] theorem State.reg16_setRep (p : Rep) (x : Reg16) : (s.setRep p).reg16 x = s.reg16 x := by simp [State.reg16]
@[simp] theorem State.reg8_setRep (p : Rep) (x : Reg8) : (s.setRep p).reg8 x = s.reg8 x := by simp [State.reg8, State.reg16]
@[simp] theorem State.seg_setRep (p : Rep) (x : Seg) : (s.setRep p).seg x = s.seg x := by simp [State.seg]
@[simp] theorem State.flag_setRep (p : Rep) (x : Flag) : (s.setRep p).flag x = s.flag x := by simp [State.flag]
@[simp] theorem State.memByte_setRep (p : Rep) (x : Phys) : (s.setRep p).memByte x = s.memByte x := by simp [State.memByte]
@[simp] theorem State.ip_setRep (p : Rep) : (s.setRep p).ip = s.ip := by simp [State.ip]
@[simp] theorem State.reg16_readLoc8 (l : Loc Reg8) (x : Reg16) : ((s.readLoc8 l).2).reg16 x = s.reg16 x := by simp [State.reg16]
@[simp] theorem State.reg8_readLoc8 (l : Loc Reg8) (x : Reg8) : ((s.readLoc8 l).2).reg8 x = s.reg8 x := by simp [State.reg8, State.reg16]
@[simp] theorem State.seg_readLoc8 (l : Loc Reg8) (x : Seg) : ((s.readLoc8 l).2).seg x = s.seg x := by simp [State.seg]
@[simp] theorem State.flag_readLoc8 (l : Loc Reg8) (x : Flag) : ((s.readLoc8 l).2).flag x = s.flag x := by simp [State.flag]
@[simp] theorem State.memByte_readLoc8 (l : Loc Reg8) (x : Phys) : ((s.readLoc8 l).2).memByte x = s.memByte x := by simp [State.memByte]
@[simp] theorem State.ip_readLoc8 (l : Loc Reg8) : ((s.readLoc8 l).2).ip = s.ip := by simp [State.ip]
@[simp] theorem State.ovr_readLoc8 (l : Loc Reg8) (x : Seg) : ((s.readLoc8 l).2).ovr x = s.ovr x := by simp [State.ovr]
@[simp] theorem State.reg16_readLoc16 (l : Loc Reg16) (x : Reg16) : ((s.readLoc16 l).2).reg16 x = s.reg16 x := by simp [State.reg16]
@[simp] theorem State.reg8_readLoc16 (l : Loc Reg16) (x : Reg8) : ((s.readLoc16 l).2).reg8 x = s.reg8 x := by simp [State.reg8, State.reg16]
@[simp] theorem State.seg_readLoc16 (l : Loc Reg16) (x : Seg) : ((s.readLoc16 l).2).seg x = s.seg x := by simp [State.seg]
@[simp] theorem State.flag_readLoc16 (l : Loc Reg16) (x : Flag) : ((s.readLoc16 l).2).flag x = s.flag x := by simp [State.flag]
@[simp] theorem State.memByte_readLoc16 (l : Loc Reg16) (x : Phys) : ((s.readLoc16 l).2).memByte x = s.memByte x := by simp [State.memByte]
@[simp] theorem State.ip_readLoc16 (l : Loc Reg16) : ((s.readLoc16 l).2).ip = s.ip := by simp [State.ip]
@[simp] theorem State.ovr_readLoc16 (l : Loc Reg16) (x : Seg) : ((s.readLoc16 l).2).ovr x = s.ovr x := by simp [State.ovr]
@[simp] theorem State.seg_writeLoc8 (l : Loc Reg8) (v : Byte) (x : Seg) : (s.writeLoc8 l v).seg x = s.seg x := by simp [State.seg]
@[simp] theorem State.flag_writeLoc8 (l : Loc Reg8) (v : Byte) (x : Flag) : (s.writeLoc8 l v).flag x = s.flag x := by simp [State.flag]
@[simp] theorem State.ip_writeLoc8 (l : Loc Reg8) (v : Byte) : (s.writeLoc8 l v).ip = s.ip := by simp [State.ip]
@[simp] theorem State.ovr_writeLoc8 (l : Loc Reg8) (v : Byte) (x : Seg) : (s.writeLoc8 l v).ovr x = s.ovr x := by simp [State.ovr]
@[simp] theorem State.seg_writeLoc16 (l : Loc Reg16) (v : Word) (x : Seg) : (s.writeLoc16 l v).seg x = s.seg x := by simp [State.seg]
@[simp] theorem State.flag_writeLoc16 (l : Loc Reg16) (v : Word) (x : Flag) : (s.writeLoc16 l v).flag x = s.flag x := by simp [State.flag]
@[simp] theorem State.ip_writeLoc16 (l : Loc Reg16) (v : Word) : (s.writeLoc16 l v).ip = s.ip := by simp [State.ip]
@[simp] theorem State.ovr_writeLoc16 (l : Loc Reg16) (v : Word) (x : Seg) : (s.writeLoc16 l v).ovr x = s.ovr x := by simp [State.ovr]
@[simp] theorem State.reg16_fetchByte (x : Reg16) : (s.fetchByte.2).reg16 x = s.reg16 x := by simp [State.reg16]
@[simp] theorem State.reg8_fetchByte (x : Reg8) : (s.fetchByte.2).reg8 x = s.reg8 x := by simp [State.reg8, State.reg16]
@[simp] theorem State.seg_fetchByte (x : Seg) : (s.fetchByte.2).seg x = s.seg x := by simp [State.seg]
@[simp] theorem State.flag_fetchByte (x : Flag) : (s.fetchByte.2).flag x = s.flag x := by simp [State.flag]
@[simp] theorem State.memByte_fetchByte (x : Phys) : (s.fetchByte.2).memByte x = s.memByte x := by simp [State.memByte]
@[simp] theorem State.ovr_fetchByte (x : Seg) : (s.fetchByte.2).ovr x = s.ovr x := by simp [State.ovr]

/-! ## Registers -/

theorem Regs.set_comm (r : Regs) {a b : Reg16} (h : a ≠ b) (v w : Word) : (r.set a v).set b w = (r.set b w).set a v := by
  cases a <;> cases b <;> first | rfl | exact absurd rfl h

@[simp] theorem Regs.set_set (r : Regs) (a : Reg16) (v w : Word) : (r.set a v).set a w = r.set a w := by cases a <;> rfl

theorem State.reg16_setReg16 (r : Reg16) (v : Word) (x : Reg16) :
    (s.setReg16 r v).reg16 x = if x = r then v else s.reg16 x := by
  cases r <;> cases x <;> rfl

@[simp] theorem State.reg16_setReg16_self (r : Reg16) (v : Word) : (s.setReg16 r v).reg16 r = v := by cases r <;> rfl

theorem State.reg16_setReg16_ne {r x : Reg16} (h : x ≠ r) (v : Word) : (s.setReg16 r v).reg16 x = s.reg16 x := by
  rw [State.reg16_setReg16, if_neg h]

@[simp] theorem lo8_join16 (h l : Byte) : lo8 (join16 h l) = l := by
  apply BitVec.eq_of_toNat_eq
  have := h.isLt; have := l.isLt
  simp only [lo8, join16, BitVec.extractLsb'_toNat, BitVec.toNat_append, Nat.shiftRight_zero]
  rw [← Nat.shiftLeft_add_eq_or_of_lt (by omega), Nat.shiftLeft_eq]; omega

@[simp] theorem hi8_join16 (h l : Byte) : hi8 (join16 h l) = h := by
  apply BitVec.eq_of_toNat_eq
  have := h.isLt; have := l.isLt
  simp only [hi8, join16, BitVec.extractLsb'_toNat, BitVec.toNat_append]
  rw [← Nat.shiftLeft_add_eq_or_of_lt (by omega), Nat.shiftLeft_eq, Nat.shiftRight_eq_div_pow]; omega

@[simp] theorem join16_hi8_lo8 (w : Word) : join16 (hi8 w) (lo8 w) = w := by
  apply BitVec.eq_of_toNat_eq
  have := w.isLt
  simp only [hi8, lo8, join16, BitVec.extractLsb'_toNat, BitVec.toNat_append, Nat.shiftRight_zero]
  rw [← Nat.shiftLeft_add_eq_or_of_lt (Nat.mod_lt _ (by decide)), Nat.shiftLeft_eq, Nat.shiftRight_eq_div_pow]; omega

theorem State.reg8_setReg8 (r : Reg8) (v : Byte) (x : Reg8) :
    (s.setReg8 r v).reg8 x = if x = r then v else s.reg8 x := by
  cases r <;> cases x <;> simp [State.reg8, State.setReg8, Reg8.whole, Reg8.high, State.reg16_setReg16]

@[simp] theorem State.reg8_setReg8_self (r : Reg8) (v : Byte) : (s.setReg8 r v).reg8 r = v := by
  rw [State.reg8_setReg8, if_pos rfl]

theorem State.reg16_setReg8 (r : Reg8) (v : Byte) (x : Reg16) :
    (s.setReg8 r v).reg16 x = if x = Reg8.whole r then
      (if Reg8.high r then join16 v (lo8 (s.reg16 x)) else join16 (hi8 (s.reg16 x)) v) else s.reg16 x := by
  cases r <;> cases x <;> rfl

theorem State.reg16_setReg8_ne {r : Reg8} {x : Reg16} (h : x ≠ Reg8.whole r) (v : Byte) :
    (s.setReg8 r v).reg16 x = s.reg16 x := by
  rw [State.reg16_setReg8, if_neg h]

theorem State.seg_setSeg (g : Seg) (v : Word) (x : Seg) : (s.setSeg g v).seg x = if x = g then v else s.seg x := by
  cases g <;> cases x <;> rfl

@[simp] theorem State.seg_setSeg_self (g : Seg) (v : Word) : (s.setSeg g v).seg g = v := by cases g <;> rfl

theorem State.seg_farJump (x o : Word) (g : Seg) : (s.farJump x o).seg g = if g = .cs then x else s.seg g := by
  cases g <;> rfl

theorem State.reg16_push16 (v : Word) (x : Reg16) :
    (s.push16 v).reg16 x = if x = .sp then s.reg16 .sp - 2 else s.reg16 x := by
  simp only [State.push16, State.reg16_write16, State.reg16_setReg16]

theorem State.reg16_pop16 (x : Reg16) :
    s.pop16.2.reg16 x = if x = .sp then s.reg16 .sp + 2 else s.reg16 x := by
  simp only [State.pop16, State.reg16_read16, State.reg16_setReg16]

@[simp] theorem State.latch_push16 (v : Word) : (s.push16 v).latch = phys (s.seg .ss) (s.reg16 .sp - 2 + 1) := by
  simp [State.push16]

@[simp] theorem State.lastEa_push16 (v : Word) :
    (s.push16 v).lastEa = (phys (s.seg .ss) (s.reg16 .sp - 2 + 1)).setWidth 32 := by
  simp [State.push16]

@[simp] theorem State.latch_pop16 : s.pop16.2.latch = phys (s.seg .ss) (s.reg16 .sp + 1) := by simp [State.pop16]

@[simp] theorem State.lastEa_pop16 : s.pop16.2.lastEa = (phys (s.seg .ss) (s.reg16 .sp + 1)).setWidth 32 := by
  simp [State.pop16]

/-! ## Flags -/

/-- A bit of FLAGS after a flag is written. -/
theorem State.flags_setFlag_getLsbD (f : Flag) (b : Bool) (k : Nat) :
    (s.setFlag f b).flags.getLsbD k = if k = f.bit then b else s.flags.getLsbD k := by
  cases f <;> cases b <;> simp only [State.setFlag, Flag.bit] <;> by_cases h : k < 16 <;>
    simp +decide [h, BitVec.getLsbD_twoPow] <;> (try simp_all) <;> (try omega) <;>
    first | exact Bool.and_comm _ _ | exact Bool.or_comm _ _

theorem Flag.bit_inj {f g : Flag} : f.bit = g.bit ↔ f = g := by cases f <;> cases g <;> simp [Flag.bit]

theorem State.flag_setFlag (f : Flag) (b : Bool) (g : Flag) : (s.setFlag f b).flag g = if g = f then b else s.flag g := by
  simp only [State.flag, State.flags_setFlag_getLsbD, Flag.bit_inj]

@[simp] theorem State.flag_setFlag_self (f : Flag) (b : Bool) : (s.setFlag f b).flag f = b := by
  rw [State.flag_setFlag, if_pos rfl]

theorem State.flag_drawFlag (f g : Flag) :
    (s.drawFlag f).flag g = if g = f then (Config.freeWord s.draws).getLsbD 0 else s.flag g := by
  rw [State.drawFlag, State.flag_setFlag]; rfl

theorem State.flags_drawFlag_getLsbD (f : Flag) (k : Nat) :
    (s.drawFlag f).flags.getLsbD k = if k = f.bit then (Config.freeWord s.draws).getLsbD 0 else s.flags.getLsbD k := by
  rw [State.drawFlag, State.flags_setFlag_getLsbD]; rfl

theorem State.flag_setSzp {w : Nat} (r : BitVec w) (g : Flag) : (s.setSzp r).flag g =
    if g = .pf then parity r else if g = .zf then r == 0 else if g = .sf then r.msb else s.flag g := by
  simp only [State.setSzp, State.flag_setFlag]

theorem State.flag_addC {w : Nat} (a b : BitVec w) (c : Bool) (g : Flag) : (s.addC a b c).2.flag g =
    match g with
    | .pf => parity (addCResult a b c)
    | .zf => addCResult a b c == 0
    | .sf => (addCResult a b c).msb
    | .ofl => ((a ^^^ addCResult a b c) &&& (b ^^^ addCResult a b c)).msb
    | .af => (a ^^^ b ^^^ addCResult a b c).getLsbD 4
    | .cf => decide (2 ^ w ≤ a.toNat + b.toNat + c.toNat)
    | g => s.flag g := by
  cases g <;> simp [State.addC, State.flag_setSzp, State.flag_setFlag]

theorem State.flag_subB {w : Nat} (a b : BitVec w) (c : Bool) (g : Flag) : (s.subB a b c).2.flag g =
    match g with
    | .pf => parity (subBResult a b c)
    | .zf => subBResult a b c == 0
    | .sf => (subBResult a b c).msb
    | .ofl => ((a ^^^ b) &&& (a ^^^ subBResult a b c)).msb
    | .af => (a ^^^ b ^^^ subBResult a b c).getLsbD 4
    | .cf => decide ((a.toNat : Int) - (b.toNat : Int) - (c.toNat : Int) < 0)
    | g => s.flag g := by
  cases g <;> simp [State.subB, State.flag_setSzp, State.flag_setFlag]

theorem State.flag_logicFlags {w : Nat} (r : BitVec w) (g : Flag) : (s.logicFlags r).flag g =
    match g with
    | .pf => parity r
    | .zf => r == 0
    | .sf => r.msb
    | .ofl => false
    | .af => (Config.freeWord s.draws).getLsbD 0
    | .cf => false
    | g => s.flag g := by
  cases g <;> simp [State.logicFlags, State.flag_drawFlag, State.flag_setSzp, State.flag_setFlag]

/-- The bits of FLAGS that are no flag. -/
def reservedBit (k : Nat) : Bool := k == 1 || k == 3 || k == 5 || decide (12 ≤ k)

theorem State.flags_setFlag_reserved (f : Flag) (b : Bool) {k : Nat} (h : reservedBit k = true) :
    (s.setFlag f b).flags.getLsbD k = s.flags.getLsbD k := by
  rw [State.flags_setFlag_getLsbD, if_neg]
  rintro rfl
  cases f <;> simp [reservedBit, Flag.bit] at h

/-! ## The queue and IP -/

theorem BoundedQueue.drainPart_items {α : Type} {n : Nat} (k : Nat) (q : BoundedQueue α n) :
    (q.drainPart k).2.items = q.items.drop k := by
  induction k generalizing q with
  | zero => rfl
  | succ k ih =>
    obtain ⟨h, l⟩ := q
    cases l with
    | nil => rfl
    | cons a l => simpa [BoundedQueue.drainPart, BoundedQueue.pop] using ih ⟨(h + 1) % n, l⟩

theorem BoundedQueue.drain_items {α : Type} {n : Nat} (q : BoundedQueue α n) : q.drain.2.items = [] := by
  simp [BoundedQueue.drain, BoundedQueue.drainPart_items, BoundedQueue.size]

@[simp] theorem State.items_flush : s.flush.queue.items = [] := BoundedQueue.drain_items _

@[simp] theorem State.ip_jump (t : Word) : (s.jump t).ip = t := by
  simp [State.ip, BoundedQueue.size]

@[simp] theorem State.ip_farJump (x o : Word) : (s.farJump x o).ip = o := by
  simp [State.ip, BoundedQueue.size]

end Sys2Proof.Machine
end

