-- ==== Sys2Proof/Laws/Effects.lean ====
section
/-! SUPPORT. `Changes` composes, and what each shared operation changes, said once for each. -/

namespace Sys2Proof.Machine

/-- Two effects, one after the other. -/
def Effect.andThen (e f : Effect) : Effect where
  regs := e.regs ++ f.regs
  halves := e.halves ++ f.halves
  segs := e.segs ++ f.segs
  flags := e.flags ++ f.flags
  allFlags := e.allFlags || f.allFlags
  stores := e.stores ++ f.stores
  last := f.last.or e.last
  draws := e.draws + f.draws
  transfer := e.transfer || f.transfer
  halted := e.halted || f.halted
  inhibit := e.inhibit || f.inhibit
  devices := e.devices || f.devices
  ctx := e.ctx || f.ctx

theorem Changes.trans {e f : Effect} {s t u : State} (h : Changes e s t) (k : Changes f t u) : Changes (e.andThen f) s u where
  regs r hr hh := by
    simp only [Effect.andThen, List.mem_append, not_or] at hr hh
    rw [k.regs r hr.2 (fun x hx => hh x (.inr hx)), h.regs r hr.1 (fun x hx => hh x (.inl hx))]
  halves x hx hr := by
    simp only [Effect.andThen, List.mem_append, not_or] at hx hr
    rw [k.halves x hx.2 hr.2, h.halves x hx.1 hr.1]
  segs g hg := by
    simp only [Effect.andThen, List.mem_append, not_or] at hg
    rw [k.segs g hg.2, h.segs g hg.1]
  flags ha b hb := by
    simp only [Effect.andThen, List.mem_append, Bool.or_eq_false_iff] at ha hb
    rw [k.flags ha.2 b (fun x hx => hb x (.inr hx)), h.flags ha.1 b (fun x hx => hb x (.inl hx))]
  mem a ha := by
    simp only [Effect.andThen, List.mem_append, not_or] at ha
    rw [k.mem a ha.2, h.mem a ha.1]
  latch := by
    rw [k.latch, h.latch]; cases hf : f.last <;> simp [Effect.andThen, hf]
  lastEa := by
    rw [k.lastEa, h.lastEa]; cases hf : f.last <;> simp [Effect.andThen, hf]
  draws := by rw [k.draws, h.draws]; simp [Effect.andThen, Nat.add_assoc]
  pipe hp := by
    simp only [Effect.andThen, Bool.or_eq_false_iff] at hp
    obtain ⟨a, b, c, d⟩ := h.pipe hp.1
    obtain ⟨a', b', c', d'⟩ := k.pipe hp.2
    exact ⟨a'.trans a, b'.trans b, c'.trans c, d'.trans d⟩
  halted hp := by
    simp only [Effect.andThen, Bool.or_eq_false_iff] at hp; rw [k.halted hp.2, h.halted hp.1]
  inhibit hp := by
    simp only [Effect.andThen, Bool.or_eq_false_iff] at hp; rw [k.inhibit hp.2, h.inhibit hp.1]
  devices hp := by
    simp only [Effect.andThen, Bool.or_eq_false_iff] at hp; rw [k.devices hp.2, h.devices hp.1]
  ctx hp := by
    simp only [Effect.andThen, Bool.or_eq_false_iff] at hp; rw [k.ctx hp.2, h.ctx hp.1]
  rest := by
    obtain ⟨a, b, c, d, e, f, g, i⟩ := h.rest
    obtain ⟨a', b', c', d', e', f', g', i'⟩ := k.rest
    exact ⟨a'.trans a, b'.trans b, c'.trans c, d'.trans d, e'.trans e, f'.trans f, g'.trans g, i'.trans i⟩

/-- `f` allows all that `e` does. -/
structure Effect.Within (e f : Effect) : Prop where
  regs : ∀ r ∈ e.regs, r ∈ f.regs
  halves : ∀ h ∈ e.halves, h ∈ f.halves ∨ Reg8.whole h ∈ f.regs
  segs : ∀ g ∈ e.segs, g ∈ f.segs
  flags : ∀ x ∈ e.flags, x ∈ f.flags ∨ f.allFlags = true
  allFlags : e.allFlags = true → f.allFlags = true
  stores : ∀ a ∈ e.stores, a ∈ f.stores
  last : e.last = f.last
  draws : e.draws = f.draws
  transfer : e.transfer = true → f.transfer = true
  halted : e.halted = true → f.halted = true
  inhibit : e.inhibit = true → f.inhibit = true
  devices : e.devices = true → f.devices = true
  ctx : e.ctx = true → f.ctx = true

theorem Changes.mono {e f : Effect} {s t : State} (h : Changes e s t) (w : e.Within f) : Changes f s t where
  regs r hr hh := h.regs r (fun x => hr (w.regs r x)) (fun x hx hw => by
    rcases w.halves x hx with h1 | h1
    · exact hh x h1 hw
    · exact hr (hw ▸ h1))
  halves x hx hr := h.halves x (fun y => (w.halves x y).elim hx hr) (fun y => hr (w.regs _ y))
  segs g hg := h.segs g (fun x => hg (w.segs g x))
  flags ha b hb := h.flags (by cases he : e.allFlags <;> simp_all [w.allFlags]) b
    (fun x hx => hb x ((w.flags x hx).resolve_right (by simp [ha])))
  mem a ha := h.mem a (fun x => ha (w.stores a x))
  latch := by rw [h.latch, w.last]
  lastEa := by rw [h.lastEa, w.last]
  draws := by rw [h.draws, w.draws]
  pipe hp := h.pipe (by have := w.transfer; cases he : e.transfer <;> simp_all)
  halted hp := h.halted (by have := w.halted; cases he : e.halted <;> simp_all)
  inhibit hp := h.inhibit (by have := w.inhibit; cases he : e.inhibit <;> simp_all)
  devices hp := h.devices (by have := w.devices; cases he : e.devices <;> simp_all)
  ctx hp := h.ctx (by have := w.ctx; cases he : e.ctx <;> simp_all)
  rest := h.rest

theorem Changes.refl (s : State) : Changes {} s s where
  regs _ _ _ := rfl
  halves _ _ _ := rfl
  segs _ _ := rfl
  flags _ _ _ := rfl
  mem _ _ := rfl
  latch := rfl
  lastEa := rfl
  draws := rfl
  pipe _ := ⟨rfl, rfl, rfl, rfl⟩
  halted _ := rfl
  inhibit _ := rfl
  devices _ := rfl
  ctx _ := rfl
  rest := ⟨rfl, rfl, rfl, rfl, rfl, rfl, rfl, rfl⟩

variable (s : State)

theorem State.setReg16_changes (r : Reg16) (v : Word) : Changes { regs := [r] } s (s.setReg16 r v) where
  regs x hx _ := State.reg16_setReg16_ne s (by simpa using hx) v
  halves x _ hx := by
    simp only [State.reg8, State.reg16_setReg16_ne s (x := Reg8.whole x) (r := r) (by simpa using hx) v]
  segs _ _ := rfl
  flags _ _ _ := rfl
  mem _ _ := rfl
  latch := rfl
  lastEa := rfl
  draws := rfl
  pipe _ := ⟨rfl, rfl, rfl, rfl⟩
  halted _ := rfl
  inhibit _ := rfl
  devices _ := rfl
  ctx _ := rfl
  rest := ⟨rfl, rfl, rfl, rfl, rfl, rfl, rfl, rfl⟩

theorem State.setReg8_changes (r : Reg8) (v : Byte) : Changes { halves := [r] } s (s.setReg8 r v) where
  regs x _ hx := State.reg16_setReg8_ne s (Ne.symm (hx r (by simp))) v
  halves x hx _ := by rw [State.reg8_setReg8, if_neg (by simpa using hx)]
  segs _ _ := rfl
  flags _ _ _ := rfl
  mem _ _ := rfl
  latch := rfl
  lastEa := rfl
  draws := rfl
  pipe _ := ⟨rfl, rfl, rfl, rfl⟩
  halted _ := rfl
  inhibit _ := rfl
  devices _ := rfl
  ctx _ := rfl
  rest := ⟨rfl, rfl, rfl, rfl, rfl, rfl, rfl, rfl⟩

theorem State.setSeg_changes (g : Seg) (v : Word) : Changes { segs := [g] } s (s.setSeg g v) where
  regs _ _ _ := by simp
  halves _ _ _ := by simp
  segs x hx := by rw [State.seg_setSeg, if_neg (by simpa using hx)]
  flags _ _ _ := by simp
  mem _ _ := by simp
  latch := by simp
  lastEa := by simp
  draws := by simp
  pipe _ := by simp
  halted _ := by simp
  inhibit _ := by simp
  devices _ := by simp
  ctx _ := by simp
  rest := by simp

theorem State.setFlag_changes (f : Flag) (b : Bool) : Changes { flags := [f] } s (s.setFlag f b) where
  regs _ _ _ := rfl
  halves _ _ _ := rfl
  segs _ _ := rfl
  flags _ k hk := by rw [State.flags_setFlag_getLsbD, if_neg (Ne.symm (hk f (by simp)))]
  mem _ _ := rfl
  latch := rfl
  lastEa := rfl
  draws := rfl
  pipe _ := ⟨rfl, rfl, rfl, rfl⟩
  halted _ := rfl
  inhibit _ := rfl
  devices _ := rfl
  ctx _ := rfl
  rest := ⟨rfl, rfl, rfl, rfl, rfl, rfl, rfl, rfl⟩

theorem State.draw_changes : Changes { draws := 1 } s s.draw.2 where
  regs _ _ _ := rfl
  halves _ _ _ := rfl
  segs _ _ := rfl
  flags _ _ _ := rfl
  mem _ _ := rfl
  latch := rfl
  lastEa := rfl
  draws := rfl
  pipe _ := ⟨rfl, rfl, rfl, rfl⟩
  halted _ := rfl
  inhibit _ := rfl
  devices _ := rfl
  ctx _ := rfl
  rest := ⟨rfl, rfl, rfl, rfl, rfl, rfl, rfl, rfl⟩

theorem State.drawFlag_changes (f : Flag) : Changes { flags := [f], draws := 1 } s (s.drawFlag f) :=
  ((State.draw_changes s).trans (State.setFlag_changes _ f _)).mono (by constructor <;> simp [Effect.andThen])

theorem State.drawFlags_changes (l : List Flag) : Changes { flags := l, draws := l.length } s (s.drawFlags l) := by
  induction l generalizing s with
  | nil => exact Changes.refl s
  | cons f l ih =>
    exact ((State.drawFlag_changes s f).trans (ih _)).mono
      (by constructor <;> simp +contextual [Effect.andThen]; omega)

theorem State.writeFlags_changes (v : Word) : Changes { allFlags := true } s (s.writeFlags v) where
  regs _ _ _ := rfl
  halves _ _ _ := rfl
  segs _ _ := rfl
  flags h := absurd h (by simp)
  mem _ _ := rfl
  latch := rfl
  lastEa := rfl
  draws := rfl
  pipe _ := ⟨rfl, rfl, rfl, rfl⟩
  halted _ := rfl
  inhibit _ := rfl
  devices _ := rfl
  ctx _ := rfl
  rest := ⟨rfl, rfl, rfl, rfl, rfl, rfl, rfl, rfl⟩

theorem State.setSzp_changes {w : Nat} (r : BitVec w) : Changes { flags := [.sf, .zf, .pf] } s (s.setSzp r) :=
  (((State.setFlag_changes s .sf _).trans (State.setFlag_changes _ .zf _)).trans (State.setFlag_changes _ .pf _)).mono
    (by constructor <;> simp [Effect.andThen])

/-- The flags of an addition or a subtraction. -/
def sixFlags : List Flag := [.cf, .pf, .af, .zf, .sf, .ofl]

theorem State.addC_changes {w : Nat} (a b : BitVec w) (c : Bool) : Changes { flags := sixFlags } s (s.addC a b c).2 :=
  ((((State.setFlag_changes s .cf _).trans (State.setFlag_changes _ .af _)).trans (State.setFlag_changes _ .ofl _)).trans
    (State.setSzp_changes _ _)).mono (by constructor <;> simp [Effect.andThen, sixFlags])

theorem State.subB_changes {w : Nat} (a b : BitVec w) (c : Bool) : Changes { flags := sixFlags } s (s.subB a b c).2 :=
  ((((State.setFlag_changes s .cf _).trans (State.setFlag_changes _ .af _)).trans (State.setFlag_changes _ .ofl _)).trans
    (State.setSzp_changes _ _)).mono (by constructor <;> simp [Effect.andThen, sixFlags])

theorem State.logicFlags_changes {w : Nat} (r : BitVec w) : Changes { flags := sixFlags, draws := 1 } s (s.logicFlags r) :=
  ((((State.setFlag_changes s .cf _).trans (State.setFlag_changes _ .ofl _)).trans (State.setSzp_changes _ _)).trans
    (State.drawFlag_changes _ .af)).mono (by constructor <;> simp [Effect.andThen, sixFlags])

theorem State.alu_changes {w : Nat} (op : AluOp) (a b : BitVec w) :
    Changes { flags := sixFlags, draws := op.drawn } s (s.alu op a b).2 := by
  cases op with
  | add => exact State.addC_changes s a b false
  | adc => exact State.addC_changes s a b (s.flag .cf)
  | sub => exact State.subB_changes s a b false
  | cmp => exact State.subB_changes s a b false
  | sbb => exact State.subB_changes s a b (s.flag .cf)
  | and => exact State.logicFlags_changes s (a &&& b)
  | or => exact State.logicFlags_changes s (a ||| b)
  | xor => exact State.logicFlags_changes s (a ^^^ b)

theorem State.pa_changes (x o : Word) : Changes { last := some (phys x o) } s (s.pa x o).2 where
  regs _ _ _ := rfl
  halves _ _ _ := rfl
  segs _ _ := rfl
  flags _ _ _ := rfl
  mem _ _ := rfl
  latch := rfl
  lastEa := rfl
  draws := rfl
  pipe _ := ⟨rfl, rfl, rfl, rfl⟩
  halted _ := rfl
  inhibit _ := rfl
  devices _ := rfl
  ctx _ := rfl
  rest := ⟨rfl, rfl, rfl, rfl, rfl, rfl, rfl, rfl⟩

theorem State.read8_changes (x o : Word) : Changes { last := some (phys x o) } s (s.read8 x o).2 := State.pa_changes s x o

theorem State.read16_changes (x o : Word) : Changes { last := some (phys x (o + 1)) } s (s.read16 x o).2 :=
  ((State.read8_changes s x o).trans (State.read8_changes _ x (o + 1))).mono
    (by constructor <;> simp [Effect.andThen])

@[simp] theorem State.read8_value (x o : Word) : (s.read8 x o).1 = s.memByte (phys x o) := rfl

@[simp] theorem State.read16_value (x o : Word) : (s.read16 x o).1 = s.wordAt x o := rfl

theorem State.setMemByte_changes (a : Phys) (b : Byte) (hw : Memory.wf s.mem = true) :
    Changes { stores := [a] } s (s.setMemByte a b) where
  regs _ _ _ := rfl
  halves _ _ _ := rfl
  segs _ _ := rfl
  flags _ _ _ := rfl
  mem x hx := by rw [State.memByte_setMemByte s a b x hw, if_neg (by simpa using hx)]
  latch := rfl
  lastEa := rfl
  draws := rfl
  pipe _ := ⟨rfl, rfl, rfl, rfl⟩
  halted _ := rfl
  inhibit _ := rfl
  devices _ := rfl
  ctx _ := rfl
  rest := ⟨rfl, rfl, rfl, rfl, rfl, rfl, rfl, rfl⟩

theorem State.write8_changes (x o : Word) (v : Byte) (hw : Memory.wf s.mem = true) :
    Changes { stores := [phys x o], last := some (phys x o) } s (s.write8 x o v) :=
  ((State.pa_changes s x o).trans (State.setMemByte_changes _ (phys x o) v hw)).mono
    (by constructor <;> simp [Effect.andThen])

theorem State.write16_changes (x o v : Word) (hw : Memory.wf s.mem = true) :
    Changes { stores := [phys x o, phys x (o + 1)], last := some (phys x (o + 1)) } s (s.write16 x o v) :=
  ((State.write8_changes s x o _ hw).trans (State.write8_changes _ x (o + 1) _ (State.write8_wf s x o _ hw))).mono
    (by constructor <;> simp [Effect.andThen])

/-- A word read after it is written. -/
theorem State.wordAt_write16 (x o v : Word) (hw : Memory.wf s.mem = true) : (s.write16 x o v).wordAt x o = v := by
  simp only [State.wordAt, State.memByte_write16 s x o v _ hw, if_pos trivial, Ne.symm (phys_succ_ne x o), if_false,
    join16_hi8_lo8]

/-! ## Operands -/

@[simp] theorem State.readLoc8_value (l : Loc Reg8) : (s.readLoc8 l).1 = s.at8 l := by cases l <;> rfl

@[simp] theorem State.readLoc16_value (l : Loc Reg16) : (s.readLoc16 l).1 = s.at16 l := by cases l <;> rfl

@[simp] theorem State.readRm8_value (e : Rm8) : (s.readRm8 e).1 = s.at8 (s.loc e) := by simp [State.readRm8]

@[simp] theorem State.readRm16_value (e : Rm16) : (s.readRm16 e).1 = s.at16 (s.loc e) := by simp [State.readRm16]

theorem State.readLoc8_changes (l : Loc Reg8) : Changes { last := l.last8 } s (s.readLoc8 l).2 := by
  cases l with
  | reg r => exact Changes.refl s
  | mem x o => exact State.read8_changes s x o

theorem State.readLoc16_changes (l : Loc Reg16) : Changes { last := l.last16 } s (s.readLoc16 l).2 := by
  cases l with
  | reg r => exact Changes.refl s
  | mem x o => exact State.read16_changes s x o

theorem State.readRm8_changes (e : Rm8) : Changes { last := (s.loc e).last8 } s (s.readRm8 e).2 :=
  State.readLoc8_changes s _

theorem State.readRm16_changes (e : Rm16) : Changes { last := (s.loc e).last16 } s (s.readRm16 e).2 :=
  State.readLoc16_changes s _

theorem State.writeLoc8_changes (l : Loc Reg8) (v : Byte) (hw : Memory.wf s.mem = true) :
    Changes { halves := l.halves, stores := l.stores8, last := l.last8 } s (s.writeLoc8 l v) := by
  cases l with
  | reg r => exact (State.setReg8_changes s r v).mono (by constructor <;> simp [Loc.halves, Loc.stores8, Loc.last8])
  | mem x o => exact State.write8_changes s x o v hw

theorem State.writeLoc16_changes (l : Loc Reg16) (v : Word) (hw : Memory.wf s.mem = true) :
    Changes { regs := l.regs, stores := l.stores16, last := l.last16 } s (s.writeLoc16 l v) := by
  cases l with
  | reg r => exact (State.setReg16_changes s r v).mono (by constructor <;> simp [Loc.regs, Loc.stores16, Loc.last16])
  | mem x o => exact State.write16_changes s x o v hw

theorem State.at8_writeLoc8 (l : Loc Reg8) (v : Byte) (hw : Memory.wf s.mem = true) : (s.writeLoc8 l v).at8 l = v := by
  cases l with
  | reg r => exact State.reg8_setReg8_self s r v
  | mem x o => simp only [State.at8, State.writeLoc8, State.memByte_write8 s x o v _ hw, if_true]

theorem State.at16_writeLoc16 (l : Loc Reg16) (v : Word) (hw : Memory.wf s.mem = true) : (s.writeLoc16 l v).at16 l = v := by
  cases l with
  | reg r => exact State.reg16_setReg16_self s r v
  | mem x o => exact State.wordAt_write16 s x o v hw

/-- A place holds what it did in a state with the same registers and memory. -/
theorem State.at8_congr {t : State} (hr : t.regs = s.regs) (hm : t.mem = s.mem) (l : Loc Reg8) : t.at8 l = s.at8 l := by
  cases l with
  | reg r => cases r <;> simp [State.at8, State.reg8, State.reg16, hr]
  | mem x o => simp [State.at8, State.memByte, hm]

theorem State.at16_congr {t : State} (hr : t.regs = s.regs) (hm : t.mem = s.mem) (l : Loc Reg16) : t.at16 l = s.at16 l := by
  cases l with
  | reg r => cases r <;> simp [State.at16, State.reg16, hr]
  | mem x o => simp [State.at16, State.wordAt, State.memByte, hm]

theorem State.wordAt_congr {t : State} (hm : t.mem = s.mem) (x o : Word) : t.wordAt x o = s.wordAt x o := by
  simp [State.wordAt, State.memByte, hm]

/-! ## The stack, transfers and interrupts -/

theorem State.push16_changes (v : Word) (hw : Memory.wf s.mem = true) :
    Changes { regs := [.sp]
              stores := [phys (s.seg .ss) (s.reg16 .sp - 2), phys (s.seg .ss) (s.reg16 .sp - 1)]
              last := some (phys (s.seg .ss) (s.reg16 .sp - 1)) } s (s.push16 v) := by
  have h1 : s.reg16 .sp - 2 + 1 = s.reg16 .sp - 1 := by
    rw [BitVec.sub_eq_add_neg, BitVec.sub_eq_add_neg, BitVec.add_assoc]; rfl
  have h := (State.setReg16_changes s .sp (s.reg16 .sp - 2)).trans
    (State.write16_changes (s.setReg16 .sp (s.reg16 .sp - 2)) (s.seg .ss) (s.reg16 .sp - 2) v hw)
  rw [h1] at h
  exact h.mono (by constructor <;> simp [Effect.andThen])

theorem State.wordAt_push16 (v : Word) (hw : Memory.wf s.mem = true) :
    (s.push16 v).wordAt (s.seg .ss) (s.reg16 .sp - 2) = v := by
  have := State.wordAt_write16 (s.setReg16 .sp (s.reg16 .sp - 2)) (s.seg .ss) (s.reg16 .sp - 2) v hw
  simpa [State.push16] using this

theorem State.pop16_value : s.pop16.1 = s.wordAt (s.seg .ss) (s.reg16 .sp) := rfl

theorem State.pop16_changes :
    Changes { regs := [.sp], last := some (phys (s.seg .ss) (s.reg16 .sp + 1)) } s s.pop16.2 :=
  ((State.read16_changes s (s.seg .ss) (s.reg16 .sp)).trans (State.setReg16_changes _ .sp _)).mono
    (by constructor <;> simp [Effect.andThen])

theorem State.flush_changes : Changes { transfer := true } s s.flush where
  regs _ _ _ := rfl
  halves _ _ _ := rfl
  segs _ _ := rfl
  flags _ _ _ := rfl
  mem _ _ := rfl
  latch := rfl
  lastEa := rfl
  draws := rfl
  pipe h := absurd h (by simp)
  halted _ := rfl
  inhibit _ := rfl
  devices _ := rfl
  ctx _ := rfl
  rest := ⟨rfl, rfl, rfl, rfl, rfl, rfl, rfl, rfl⟩

theorem State.jump_changes (t : Word) : Changes { transfer := true } s (s.jump t) where
  regs _ _ _ := rfl
  halves _ _ _ := rfl
  segs _ _ := rfl
  flags _ _ _ := rfl
  mem _ _ := rfl
  latch := rfl
  lastEa := rfl
  draws := rfl
  pipe h := absurd h (by simp)
  halted _ := rfl
  inhibit _ := rfl
  devices _ := rfl
  ctx _ := rfl
  rest := ⟨rfl, rfl, rfl, rfl, rfl, rfl, rfl, rfl⟩

theorem State.farJump_changes (x o : Word) : Changes { transfer := true, segs := [.cs] } s (s.farJump x o) :=
  ((State.setSeg_changes s .cs x).trans (State.jump_changes _ o)).mono (by constructor <;> simp [Effect.andThen])

theorem State.jump_landsAt (t : Word) : LandsAt (s.jump t) t := ⟨by simp, rfl, by simp, rfl, rfl⟩

theorem State.farJump_landsAt (x o : Word) : LandsAt (s.farJump x o) o := ⟨by simp, rfl, by simp, rfl, rfl⟩

end Sys2Proof.Machine
end

