-- ==== Sys2Proof/Laws/Arithmetic.lean ====
section
/-! SUPPORT. The value and the flags of each operation in plain arithmetic, said once for each (42_arithmetic.md R250,
R251; 43_logic.md R300 to R312). -/
namespace Sys2Proof.Machine

theorem parity_eq {w : Nat} (r : BitVec w) : parity r = evenOnes (r.setWidth 8) := by
  simp only [parity, evenOnes, BitVec.getLsbD_setWidth, List.range, List.range.loop, List.countP_cons, List.countP_nil]
  cases r.getLsbD 0 <;> cases r.getLsbD 1 <;> cases r.getLsbD 2 <;> cases r.getLsbD 3 <;> cases r.getLsbD 4 <;>
    cases r.getLsbD 5 <;> cases r.getLsbD 6 <;> cases r.getLsbD 7 <;> rfl

theorem State.setSzp_describes {w : Nat} (s : State) (r : BitVec w) : Describes (s.setSzp r) r := by
  refine ⟨?_, ?_, ?_⟩
  · simp [State.setSzp, State.flag_setFlag, BitVec.msb_eq_toInt]
  · simp [State.setSzp, State.flag_setFlag]
    rw [Bool.eq_iff_iff]; simp [BitVec.toNat_eq]
  · simp [State.setSzp, parity_eq]

theorem addCResult_eq {w : Nat} (a b : BitVec w) (c : Bool) : addCResult a b c = a + b + BitVec.ofNat w c.toNat := by
  apply BitVec.eq_of_toNat_eq; simp [addCResult, BitVec.toNat_add]

theorem ofInt_sub {w : Nat} (a b : Int) : BitVec.ofInt w (a - b) = BitVec.ofInt w a - BitVec.ofInt w b := by
  apply BitVec.eq_of_toInt_eq
  simp [BitVec.toInt_sub, BitVec.toInt_ofInt]

theorem subBResult_eq {w : Nat} (a b : BitVec w) (c : Bool) : subBResult a b c = a - b - BitVec.ofNat w c.toNat := by
  simp only [subBResult]
  rw [ofInt_sub, ofInt_sub, BitVec.ofInt_natCast, BitVec.ofInt_natCast, BitVec.ofInt_natCast,
    BitVec.ofNat_toNat, BitVec.ofNat_toNat, BitVec.setWidth_eq, BitVec.setWidth_eq]

/-- The half carry of a sum. -/
theorem half_addC {w : Nat} (hw : 4 < w) (a b : BitVec w) (c : Bool) :
    (a ^^^ b ^^^ addCResult a b c).getLsbD 4 = decide (16 ≤ a.toNat % 16 + b.toNat % 16 + c.toNat) := by
  have h : addCResult a b c = a + b + BitVec.setWidth w (BitVec.ofBool c) := by
    rw [addCResult_eq]; congr 1; apply BitVec.eq_of_toNat_eq; cases c <;> simp
  rw [h, BitVec.getLsbD_xor, BitVec.getLsbD_xor, BitVec.getLsbD_add_add_bool hw]
  simp only [BitVec.carry]
  have : (a.toNat % 2 ^ 4 + b.toNat % 2 ^ 4 + c.toNat ≥ 2 ^ 4) = (16 ≤ a.toNat % 16 + b.toNat % 16 + c.toNat) := rfl
  simp only [this]
  generalize decide (16 ≤ a.toNat % 16 + b.toNat % 16 + c.toNat) = x
  cases a.getLsbD 4 <;> cases b.getLsbD 4 <;> cases x <;> rfl

theorem half_subB {w : Nat} (hw : 4 < w) (a b : BitVec w) (c : Bool) :
    (a ^^^ b ^^^ subBResult a b c).getLsbD 4 = decide (a.toNat % 16 < b.toNat % 16 + c.toNat) := by
  have h : subBResult a b c = addCResult a (~~~b) (!c) := by
    rw [subBResult_eq, addCResult_eq, BitVec.sub_eq_add_neg (y := b), BitVec.neg_eq_not_add]
    cases c
    · simp [BitVec.add_assoc]
    · simp [BitVec.add_assoc, BitVec.sub_eq_add_neg]
  have h2 := half_addC hw a (~~~b) (!c)
  have h3 : (~~~b).toNat % 16 = 15 - b.toNat % 16 := by
    have h4 : 2 ^ w = 16 * 2 ^ (w - 4) := by rw [show (16 : Nat) = 2 ^ 4 by rfl, ← Nat.pow_add]; congr 1; omega
    have := b.isLt
    rw [BitVec.toNat_not]
    rw [h4] at this ⊢
    generalize 2 ^ (w - 4) = M at this ⊢
    omega
  rw [h]
  rw [show a ^^^ b ^^^ addCResult a (~~~b) (!c) = ~~~(a ^^^ ~~~b ^^^ addCResult a (~~~b) (!c)) by ext i h; simp]
  rw [BitVec.getLsbD_not, h2, h3]
  rw [Bool.eq_iff_iff]
  cases c <;> simp [hw] <;> omega

theorem overflow_addC {w : Nat} (hw : 0 < w) (a b : BitVec w) (c : Bool) :
    ((a ^^^ addCResult a b c) &&& (b ^^^ addCResult a b c)).msb =
      decide ((addCResult a b c).toInt ≠ a.toInt + b.toInt + c.toNat) := by
  have h2 : 2 ^ w = 2 * 2 ^ (w - 1) := by rw [← Nat.pow_succ']; congr 1; omega
  have hr : (addCResult a b c).toNat = (a.toNat + b.toNat + c.toNat) % 2 ^ w := by simp [addCResult]
  generalize addCResult a b c = r at *
  simp only [BitVec.msb_and, BitVec.msb_xor]
  simp only [BitVec.msb_eq_decide, BitVec.toInt_eq_toNat_cond]
  have := a.isLt
  have := b.isLt
  have := r.isLt
  have hc : c.toNat ≤ 1 := by cases c <;> simp
  have hr' : r.toNat = a.toNat + b.toNat + c.toNat ∨ r.toNat + 2 ^ w = a.toNat + b.toNat + c.toNat := by
    rcases Nat.lt_or_ge (a.toNat + b.toNat + c.toNat) (2 ^ w) with h | h
    · left; rw [hr, Nat.mod_eq_of_lt h]
    · right; rw [hr, Nat.mod_eq_sub_mod h, Nat.mod_eq_of_lt (by omega)]; omega
  clear hr
  push_cast
  rw [Bool.eq_iff_iff]
  simp only [Bool.and_eq_true, bne_iff_ne, decide_eq_true_eq, ne_eq, decide_eq_decide]
  have hi : (2 : Int) ^ w = ((2 ^ w : Nat) : Int) := by push_cast; rfl
  rw [hi, h2]
  rw [h2] at *
  generalize 2 ^ (w - 1) = M at *
  split <;> split <;> split <;> omega

theorem overflow_subB {w : Nat} (hw : 0 < w) (a b : BitVec w) (c : Bool) :
    ((a ^^^ b) &&& (a ^^^ subBResult a b c)).msb =
      decide ((subBResult a b c).toInt ≠ a.toInt - b.toInt - c.toNat) := by
  have h2 : 2 ^ w = 2 * 2 ^ (w - 1) := by rw [← Nat.pow_succ']; congr 1; omega
  have hr : ((subBResult a b c).toNat : Int) = ((a.toNat : Int) - b.toNat - c.toNat) % (2 ^ w : Nat) := by
    simp [subBResult, BitVec.toNat_ofInt]
    exact Int.emod_nonneg _ (by positivity)
  generalize subBResult a b c = r at *
  simp only [BitVec.msb_and, BitVec.msb_xor]
  simp only [BitVec.msb_eq_decide, BitVec.toInt_eq_toNat_cond]
  have := a.isLt
  have := b.isLt
  have := r.isLt
  have hc : c.toNat ≤ 1 := by cases c <;> simp
  have hr' : (r.toNat : Int) = (a.toNat : Int) - b.toNat - c.toNat ∨
      (r.toNat : Int) = (a.toNat : Int) - b.toNat - c.toNat + (2 ^ w : Nat) := by
    rcases Int.lt_or_le ((a.toNat : Int) - b.toNat - c.toNat) 0 with h | h
    · right; rw [hr, ← Int.add_emod_right, Int.emod_eq_of_lt (by omega) (by omega)]
    · left; rw [hr, Int.emod_eq_of_lt (by omega) (by omega)]
  clear hr
  push_cast
  rw [Bool.eq_iff_iff]
  simp only [Bool.and_eq_true, bne_iff_ne, decide_eq_true_eq, ne_eq, decide_eq_decide]
  have hi : (2 : Int) ^ w = ((2 ^ w : Nat) : Int) := by push_cast; rfl
  rw [hi, h2]
  rw [h2] at *
  generalize 2 ^ (w - 1) = M at *
  split <;> split <;> split <;> omega

/-- What `State.alu` does: the value and the six flags in plain arithmetic. -/
theorem State.alu_value {w : Nat} (s : State) (op : AluOp) (a b : BitVec w) :
    (s.alu op a b).1 = op.value a b (s.flag .cf) := by
  cases op <;> simp [State.alu, State.addC, State.subB, AluOp.value, addCResult_eq, subBResult_eq]

theorem State.addC_sets {w : Nat} (hw : 4 < w) (s : State) (a b : BitVec w) (c : Bool) :
    (s.addC a b c).2.flag .cf = decide (2 ^ w ≤ a.toNat + b.toNat + c.toNat) ∧
    (s.addC a b c).2.flag .ofl = decide ((addCResult a b c).toInt ≠ a.toInt + b.toInt + c.toNat) ∧
    (s.addC a b c).2.flag .af = decide (16 ≤ a.toNat % 16 + b.toNat % 16 + c.toNat) ∧
    Describes (s.addC a b c).2 (addCResult a b c) := by
  refine ⟨?_, ?_, ?_, State.setSzp_describes _ _⟩
  · simp [State.addC, State.setSzp, State.flag_setFlag]
  · simp only [State.addC, State.setSzp, State.flag_setFlag]
    simp [overflow_addC (by omega : 0 < w)]
  · simp only [State.addC, State.setSzp, State.flag_setFlag]
    simp [half_addC hw]

theorem State.subB_sets {w : Nat} (hw : 4 < w) (s : State) (a b : BitVec w) (c : Bool) :
    (s.subB a b c).2.flag .cf = decide (a.toNat < b.toNat + c.toNat) ∧
    (s.subB a b c).2.flag .ofl = decide ((subBResult a b c).toInt ≠ a.toInt - b.toInt - c.toNat) ∧
    (s.subB a b c).2.flag .af = decide (a.toNat % 16 < b.toNat % 16 + c.toNat) ∧
    Describes (s.subB a b c).2 (subBResult a b c) := by
  refine ⟨?_, ?_, ?_, State.setSzp_describes _ _⟩
  · simp [State.subB, State.setSzp, State.flag_setFlag]; omega
  · simp only [State.subB, State.setSzp, State.flag_setFlag]
    simp [overflow_subB (by omega : 0 < w)]
  · simp only [State.subB, State.setSzp, State.flag_setFlag]
    simp [half_subB hw]

theorem State.logicFlags_sets {w : Nat} (s : State) (r : BitVec w) :
    (s.logicFlags r).flag .cf = false ∧ (s.logicFlags r).flag .ofl = false ∧
    (s.logicFlags r).flag .af = (Config.freeWord s.draws).getLsbD 0 ∧ Describes (s.logicFlags r) r := by
  refine ⟨?_, ?_, ?_, ?_, ?_, ?_⟩
  · simp [State.logicFlags, State.setSzp, State.drawFlag, State.flag_setFlag]
  · simp [State.logicFlags, State.setSzp, State.drawFlag, State.flag_setFlag]
  · simp [State.logicFlags, State.setSzp, State.drawFlag, State.draw]
  all_goals
    have h := State.setSzp_describes ((s.setFlag .cf false).setFlag .ofl false) r
    simp [State.logicFlags, State.drawFlag, State.flag_setFlag]
  · exact h.1
  · exact h.2.1
  · exact h.2.2

theorem State.alu_sets {w : Nat} (hw : 4 < w) (s : State) (op : AluOp) (a b : BitVec w) :
    op.Sets a b (s.flag .cf) s.draws (s.alu op a b).2 := by
  have e1 : addCResult a b false = a + b := by simp [addCResult_eq]
  have e2 : subBResult a b false = a - b := by simp [subBResult_eq]
  have add0 := State.addC_sets hw s a b false
  have sub0 := State.subB_sets hw s a b false
  have addc := State.addC_sets hw s a b (s.flag .cf)
  have subc := State.subB_sets hw s a b (s.flag .cf)
  rw [e1] at add0
  rw [e2] at sub0
  rw [addCResult_eq] at addc
  rw [subBResult_eq] at subc
  cases op <;> simp only [AluOp.Sets, AluOp.carryOut, AluOp.overflows, AluOp.halfCarry, AluOp.value, AluOp.exact,
    AluOp.carryIn, State.alu, Option.getD_some, Option.getD_none]
  · exact add0
  · simpa using State.logicFlags_sets s (a ||| b)
  · exact addc
  · exact subc
  · simpa using State.logicFlags_sets s (a &&& b)
  · exact sub0
  · simpa using State.logicFlags_sets s (a ^^^ b)
  · exact sub0

end Sys2Proof.Machine
end

