-- ==== Sys2Proof/Laws/Coding.lean ====
section
/-! SUPPORT. The codes of registers and bases, and what decoding makes of an encoded operand, said once for each form
(30_encoding.md R108 to R113). -/

namespace Sys2Proof

theorem Reg8.ofCode_code (r : Reg8) : Reg8.ofCode r.code = r := by cases r <;> rfl

theorem Reg16.ofCode_code (r : Reg16) : Reg16.ofCode r.code = r := by cases r <;> rfl

theorem Seg.ofCode_code (g : Seg) : Seg.ofCode g.code = g := by cases g <;> rfl

theorem EaBase.ofCode_code (b : EaBase) : EaBase.ofCode b.code = b := by cases b <;> rfl

theorem splitModRm_join (m : BitVec 2) (r rm : BitVec 3) : splitModRm (joinModRm m r rm) = ⟨m, r, rm⟩ := by
  revert m r rm; decide

/-- The bytes of a word put together give the word. -/
theorem join16_bytes (w : Word) : join16 (hi8 w) (lo8 w) = w := by
  apply BitVec.eq_of_getLsbD_eq
  intro i hi
  simp only [join16, hi8, lo8, BitVec.getLsbD_append, BitVec.getLsbD_extractLsb']
  by_cases h : i < 8
  · simp [h]
  · simp [h, show i - 8 < 8 by omega, show 8 + (i - 8) = i by omega]

/-- The mod field of an encoded memory operand. -/
def MemOp.modField : MemOp → BitVec 2
  | .direct _ | .base _ .none => 0
  | .base _ (.d8 _) => 1
  | .base _ (.d16 _) => 2

/-- The rm field of an encoded memory operand. -/
def MemOp.rmField : MemOp → BitVec 3
  | .direct _ => 6
  | .base b _ => b.code

/-- The displacement bytes of an encoded memory operand. -/
def MemOp.dispBytes : MemOp → List Byte
  | .direct o => wordBytes o
  | .base _ .none => []
  | .base _ (.d8 d) => [d]
  | .base _ (.d16 d) => wordBytes d

theorem encodeMem_eq (reg : BitVec 3) (m : MemOp) :
    encodeMem reg m = joinModRm m.modField reg m.rmField :: m.dispBytes := by
  cases m with
  | direct o => rfl
  | base b d => cases d <;> rfl

theorem readOperand_mem (reg : BitVec 3) (m : MemOp) (rest : List Byte) (h : m.wf = true) :
    readOperand ⟨m.modField, reg, m.rmField⟩ (m.dispBytes ++ rest) = some (.mem m, rest) := by
  match m with
  | .direct o => simp [readOperand, MemOp.modField, MemOp.rmField, MemOp.dispBytes, wordBytes, join16_bytes]
  | .base b .none =>
    cases b <;> first | rfl | exact absurd h (by decide)
  | .base b (.d8 d) => simp [readOperand, MemOp.modField, MemOp.rmField, MemOp.dispBytes, EaBase.ofCode_code]
  | .base b (.d16 d) =>
    simp [readOperand, MemOp.modField, MemOp.rmField, MemOp.dispBytes, wordBytes, join16_bytes, EaBase.ofCode_code]

/-- Reading an encoded memory operand: its fields go to the row, and the operand to what follows. -/
theorem withModRm_mem (op : Byte) (reg : BitVec 3) (m : MemOp) (rest : List Byte)
    (k : ModRm → Option (Rm (BitVec 3) → List Byte → Decoded)) (h : m.wf = true) :
    withModRm op (encodeMem reg m ++ rest) k = match k ⟨m.modField, reg, m.rmField⟩ with
      | none => .unknown op
      | some f => f (.mem m) rest := by
  simp only [encodeMem_eq, withModRm, List.cons_append, splitModRm_join, readOperand_mem reg m rest h]
  all_goals (cases k ⟨m.modField, reg, m.rmField⟩ <;> rfl)

/-- The fields of an encoded byte operand. -/
def Rm8.fields (reg : BitVec 3) : Rm8 → ModRm
  | .reg r => ⟨3, reg, r.code⟩
  | .mem m => ⟨m.modField, reg, m.rmField⟩

/-- The fields of an encoded word operand. -/
def Rm16.fields (reg : BitVec 3) : Rm16 → ModRm
  | .reg r => ⟨3, reg, r.code⟩
  | .mem m => ⟨m.modField, reg, m.rmField⟩

/-- Reading an encoded byte operand, for a row that takes it as `Eb`. -/
theorem withModRm_rm8 (op : Byte) (reg : BitVec 3) (e : Rm8) (rest : List Byte)
    (k : ModRm → Option (Rm (BitVec 3) → List Byte → Decoded)) (f : Rm8 → List Byte → Decoded)
    (hk : k (e.fields reg) = some fun x => f (rm8 x)) (h : e.wf = true) :
    withModRm op (encodeRm8 reg e ++ rest) k = f e rest := by
  cases e with
  | reg r =>
    simp only [Rm8.fields] at hk
    simp only [encodeRm8, withModRm, List.cons_append, List.nil_append, splitModRm_join, hk]
    exact congrArg (fun x => f (.reg x) rest) (Reg8.ofCode_code r)
  | mem m => rw [encodeRm8, withModRm_mem op reg m rest k h]; simp only [Rm8.fields] at hk; rw [hk]; rfl

/-- Reading an encoded word operand, for a row that takes it as `Ew`. -/
theorem withModRm_rm16 (op : Byte) (reg : BitVec 3) (e : Rm16) (rest : List Byte)
    (k : ModRm → Option (Rm (BitVec 3) → List Byte → Decoded)) (f : Rm16 → List Byte → Decoded)
    (hk : k (e.fields reg) = some fun x => f (rm16 x)) (h : e.wf = true) :
    withModRm op (encodeRm16 reg e ++ rest) k = f e rest := by
  cases e with
  | reg r =>
    simp only [Rm16.fields] at hk
    simp only [encodeRm16, withModRm, List.cons_append, List.nil_append, splitModRm_join, hk]
    exact congrArg (fun x => f (.reg x) rest) (Reg16.ofCode_code r)
  | mem m => rw [encodeRm16, withModRm_mem op reg m rest k h]; simp only [Rm16.fields] at hk; rw [hk]; rfl

end Sys2Proof
end

