-- ==== Sys2Proof/Laws/Fetch.lean ====
section
/-! SUPPORT. What reading the instruction stream depends on and what it changes (40_pipeline.md R168), and what reading a whole
instruction with its prefixes leaves alone (30_encoding.md R103 to R105). -/

namespace Sys2Proof.Machine

/-! ## One byte, and several -/

/-- What a byte read gives, and where it leaves pc and the queue, depend only on the queue, pc, the segment registers and
memory. -/
theorem State.fetchByte_congr {s t : State} (hq : s.queue = t.queue) (hp : s.pc = t.pc) (hs : s.segs = t.segs)
    (hm : s.mem = t.mem) : s.fetchByte.1 = t.fetchByte.1 ∧ s.fetchByte.2.queue = t.fetchByte.2.queue ∧
      s.fetchByte.2.pc = t.fetchByte.2.pc := by
  have hb : s.nextByte = t.nextByte := by simp only [State.nextByte, State.memByte, State.seg, hs, hp, hm]
  simp only [State.fetchByte, hq]
  cases t.queue.pop with
  | none => exact ⟨hb, rfl, congrArg (· + 1) hp⟩
  | some x => exact ⟨rfl, rfl, hp⟩

/-- Reading a byte changes pc and the queue alone. -/
theorem State.fetchByte_frame (s : State) :
    s.fetchByte.2 = { s with pc := s.fetchByte.2.pc, queue := s.fetchByte.2.queue } := by
  simp only [State.fetchByte]
  split <;> rfl

/-- Reading bytes changes pc and the queue alone. -/
theorem State.consume_eq (n : Nat) (s : State) : ∃ p q, s.consume n = { s with pc := p, queue := q } := by
  induction n generalizing s with
  | zero => exact ⟨s.pc, s.queue, rfl⟩
  | succ n ih =>
    obtain ⟨p, q, h⟩ := ih s.fetchByte.2
    refine ⟨p, q, h.trans ?_⟩
    rw [State.fetchByte_frame s]

/-- Where reading bytes leaves pc and the queue depends only on the queue, pc, the segment registers and memory. -/
theorem State.consume_congr (n : Nat) {s t : State} (hq : s.queue = t.queue) (hp : s.pc = t.pc) (hs : s.segs = t.segs)
    (hm : s.mem = t.mem) : (s.consume n).queue = (t.consume n).queue ∧ (s.consume n).pc = (t.consume n).pc := by
  induction n generalizing s t with
  | zero => exact ⟨hq, hp⟩
  | succ n ih =>
    have h := State.fetchByte_congr hq hp hs hm
    refine ih h.2.1 h.2.2 ?_ ?_
    · rw [State.fetchByte_frame s, State.fetchByte_frame t]; exact hs
    · rw [State.fetchByte_frame s, State.fetchByte_frame t]; exact hm

/-- Reading m + n bytes is reading m and then n. -/
theorem State.consume_add (m n : Nat) (s : State) : s.consume (m + n) = (s.consume m).consume n := by
  induction m generalizing s with
  | zero => simp [State.consume]
  | succ m ih => rw [Nat.succ_add]; exact ih _

@[simp] theorem State.window_length (n : Nat) (s : State) : (s.window n).length = n := by
  induction n generalizing s with
  | zero => rfl
  | succ n ih => exact congrArg (· + 1) (ih _)

/-- The next bytes of the stream depend only on the queue, pc, the segment registers and memory. -/
theorem State.window_congr (n : Nat) {s t : State} (hq : s.queue = t.queue) (hp : s.pc = t.pc) (hs : s.segs = t.segs)
    (hm : s.mem = t.mem) : s.window n = t.window n := by
  induction n generalizing s t with
  | zero => rfl
  | succ n ih =>
    have hb : s.nextByte = t.nextByte := by simp only [State.nextByte, State.memByte, State.seg, hs, hp, hm]
    simp only [State.window, State.fetchByte, hq]
    cases t.queue.pop with
    | none => exact congrArg₂ List.cons hb (ih rfl (congrArg (· + 1) hp) hs hm)
    | some x => exact congrArg (List.cons x.1) (ih rfl hp hs hm)

/-- Beginning an instruction does not change what is read. -/
theorem State.window_begin (n : Nat) (s : State) : s.begin.window n = s.window n := State.window_congr n rfl rfl rfl rfl

/-! ## A whole instruction -/

/-- A prefix row changes the override or the repeat prefix in the context, and nothing else. -/
theorem exec_prefix {i : Instr} (h : i.isPrefix = true) (s : State) :
    ∃ o r, exec i s = .next { s with ctx := ⟨o, r, s.ctx.ipStart, s.ctx.tfStart, s.ctx.entered⟩ } := by
  cases i <;> simp only [Instr.isPrefix, Bool.false_eq_true] at h <;> exact ⟨_, _, rfl⟩

/-- From `s` to `t` at most pc, the queue and the context's override and repeat prefix have changed. -/
def Reads (s t : State) : Prop :=
  ∃ p q o r, t = { s with pc := p, queue := q, ctx := ⟨o, r, s.ctx.ipStart, s.ctx.tfStart, s.ctx.entered⟩ }

theorem Reads.of_consume (n : Nat) (s : State) : Reads s (s.consume n) := by
  obtain ⟨p, q, h⟩ := State.consume_eq n s
  exact ⟨p, q, s.ctx.ovr, s.ctx.rep, h⟩

theorem Reads.trans {s t u : State} (h : Reads s t) (k : Reads t u) : Reads s u := by
  obtain ⟨p, q, o, r, rfl⟩ := h
  obtain ⟨p', q', o', r', rfl⟩ := k
  exact ⟨p', q', o', r', rfl⟩

/-- What reading an instruction from `s` comes to: a state that `Reads` leads to, and never the stop of a prefix row. -/
def ReadResult.After (s : State) : ReadResult → Prop
  | .instr _ _ u => Reads s u
  | .unknown _ u => Reads s u
  | .stopped _ => False

theorem ReadResult.After.of_reads {s t : State} {r : ReadResult} (h : Reads s t) (k : r.After t) : r.After s := by
  cases r <;> first | exact h.trans k | exact k

/-- Everything that reading an instruction can do to the state. -/
theorem State.readInstr_after (n : Nat) (b : Byte) (s : State) : (s.readInstr n b).After s := by
  induction n generalizing b s with
  | zero => exact Reads.of_consume 0 s
  | succ n ih =>
    rw [State.readInstr]
    split
    · rename_i i rest _
      split
      · obtain ⟨o, r, hc⟩ := exec_prefix ‹i.isPrefix = true› (s.consume (maxLength - rest.length))
        rw [hc]
        exact .of_reads ((Reads.of_consume _ s).trans ⟨_, _, o, r, rfl⟩) (ih _ _)
      · split <;> exact Reads.of_consume _ s
    · exact Reads.of_consume _ s
    · exact Reads.of_consume 0 s

end Sys2Proof.Machine
end

