-- ==== Sys2Proof/Laws/Operations.lean ====
section
/-! SUPPORT. What each shared operation does, said once for each: its result, its flags and what it changes. -/

namespace Sys2Proof.Machine

theorem Describes.congr {w : Nat} {t u : State} {r : BitVec w} (h : Describes t r) (e : u.flags = t.flags) :
    Describes u r := by simpa only [Describes, State.flag, e] using h

theorem AluOp.Sets.congr {w : Nat} {op : AluOp} {a b : BitVec w} {c : Bool} {d : Nat} {t u : State}
    (h : op.Sets a b c d t) (e : u.flags = t.flags) : op.Sets a b c d u := by
  simpa only [AluOp.Sets, Describes, State.flag, e] using h

@[simp] theorem State.alu_mem {w : Nat} (s : State) (op : AluOp) (a b : BitVec w) : (s.alu op a b).2.mem = s.mem := by
  cases op <;> simp [State.alu]

@[simp] theorem State.alu_regs {w : Nat} (s : State) (op : AluOp) (a b : BitVec w) : (s.alu op a b).2.regs = s.regs := by
  cases op <;> simp [State.alu]

/-! ## Draws -/

theorem Drawn.congr {t u : State} {n : Nat} {l : List Flag} (h : Drawn t n l) (e : u.flags = t.flags) : Drawn u n l := by
  simpa only [Drawn, State.flag, e] using h

/-- Drawing flags leaves a flag that is not among them. -/
theorem State.flag_drawFlags_ne (s : State) {f : Flag} {l : List Flag} (h : f ∉ l) : (s.drawFlags l).flag f = s.flag f := by
  induction l generalizing s with
  | nil => rfl
  | cons g l ih =>
    simp only [List.mem_cons, not_or] at h
    rw [State.drawFlags, ih _ h.2, State.drawFlag, State.flag_setFlag, if_neg h.1]
    rfl

/-- The flags drawn hold the next draws of the counter, in order. -/
theorem State.drawFlags_drawn (s : State) {l : List Flag} (h : l.Nodup) : Drawn (s.drawFlags l) s.draws l := by
  induction l generalizing s with
  | nil => intro k f hk; simp at hk
  | cons g l ih =>
    rw [List.nodup_cons] at h
    intro k f hk
    cases k with
    | zero =>
      obtain rfl : g = f := by simpa using hk
      rw [State.drawFlags, State.flag_drawFlags_ne _ h.1]
      simp [State.drawFlag, State.draw]
    | succ k =>
      rw [State.drawFlags, ih (s.drawFlag g) h.2 k f (by simpa using hk), show (s.drawFlag g).draws = s.draws + 1 from rfl,
        show s.draws + 1 + k = s.draws + (k + 1) by omega]

/-! ## Two operands -/

/-- A two-operand operation on a byte place. -/
theorem State.alu8_law (s : State) (op : AluOp) (l : Loc Reg8) (b : Byte) (hw : Memory.wf s.mem = true) :
    (s.alu8 op l b).at8 l = (if op = .cmp then s.at8 l else op.value (s.at8 l) b (s.flag .cf)) ∧
    op.Sets (s.at8 l) b (s.flag .cf) s.draws (s.alu8 op l b) ∧
    Changes { halves := if op = .cmp then [] else l.halves
              flags := sixFlags
              stores := if op = .cmp then [] else l.stores8
              last := l.last8
              draws := op.drawn } s (s.alu8 op l b) := by
  have hs := State.alu_sets (w := 8) (by decide) (s.readLoc8 l).2 op (s.at8 l) b
  have hv := State.alu_value (s.readLoc8 l).2 op (s.at8 l) b
  have hc := (State.readLoc8_changes s l).trans (State.alu_changes (s.readLoc8 l).2 op (s.at8 l) b)
  rw [State.flag_readLoc8, State.readLoc8_draws] at hs
  rw [State.flag_readLoc8] at hv
  by_cases h : op = .cmp
  · subst h
    have he : s.alu8 .cmp l b = ((s.readLoc8 l).2.alu .cmp (s.at8 l) b).2 := by simp [State.alu8, AluOp.writes]
    rw [he, if_pos rfl]
    exact ⟨State.at8_congr _ (by simp) (by simp) l, hs, hc.mono (by constructor <;> simp [Effect.andThen])⟩
  · have hwr : op.writes = true := by cases op <;> simp_all [AluOp.writes]
    have he : s.alu8 op l b = ((s.readLoc8 l).2.alu op (s.at8 l) b).2.writeLoc8 l (op.value (s.at8 l) b (s.flag .cf)) := by
      simp [State.alu8, hwr, hv]
    have hm : Memory.wf ((s.readLoc8 l).2.alu op (s.at8 l) b).2.mem = true := by simpa using hw
    rw [he, if_neg h, State.at8_writeLoc8 _ _ _ hm]
    exact ⟨rfl, hs.congr (by simp),
      (hc.trans (State.writeLoc8_changes _ l _ hm)).mono (by constructor <;> simp [Effect.andThen, h])⟩

/-- TEST of a byte place. -/
theorem State.test8_law (s : State) (l : Loc Reg8) (b : Byte) :
    AluOp.Sets .and (s.at8 l) b (s.flag .cf) s.draws (s.test8 l b) ∧
    Changes { flags := sixFlags, last := l.last8, draws := 1 } s (s.test8 l b) := by
  have hs := State.alu_sets (w := 8) (by decide) (s.readLoc8 l).2 .and (s.at8 l) b
  have hc := (State.readLoc8_changes s l).trans (State.alu_changes (s.readLoc8 l).2 .and (s.at8 l) b)
  rw [State.flag_readLoc8, State.readLoc8_draws] at hs
  have he : s.test8 l b = ((s.readLoc8 l).2.alu .and (s.at8 l) b).2 := by simp [State.test8]
  rw [he]
  exact ⟨hs, hc.mono (by constructor <;> simp [Effect.andThen, AluOp.drawn])⟩

/-- INC and DEC of a byte place. -/
theorem State.incDec8_law (s : State) (down : Bool) (l : Loc Reg8) (hw : Memory.wf s.mem = true) :
    (s.incDec8 down l).at8 l = AluOp.value (if down then .sub else .add) (s.at8 l) 1 false ∧
    (s.incDec8 down l).flag .ofl = AluOp.overflows (if down then .sub else .add) (s.at8 l) 1 false ∧
    some ((s.incDec8 down l).flag .af) = AluOp.halfCarry (if down then .sub else .add) (s.at8 l) 1 false ∧
    Describes (s.incDec8 down l) (AluOp.value (if down then .sub else .add) (s.at8 l) 1 false) ∧
    Changes { halves := l.halves, flags := [.pf, .af, .zf, .sf, .ofl], stores := l.stores8, last := l.last8 }
      s (s.incDec8 down l) := by
  have key : ∀ op : AluOp, op = .add ∨ op = .sub →
      s.incDec8 down l = (((s.readLoc8 l).2.alu op (s.at8 l) 1).2.setFlag .cf (s.flag .cf)).writeLoc8 l
        (op.value (s.at8 l) 1 false) →
      (s.incDec8 down l).at8 l = op.value (s.at8 l) 1 false ∧
      (s.incDec8 down l).flag .ofl = op.overflows (s.at8 l) 1 false ∧
      some ((s.incDec8 down l).flag .af) = op.halfCarry (s.at8 l) 1 false ∧
      Describes (s.incDec8 down l) (op.value (s.at8 l) 1 false) ∧
      Changes { halves := l.halves, flags := [.pf, .af, .zf, .sf, .ofl], stores := l.stores8, last := l.last8 }
        s (s.incDec8 down l) := by
    intro op hop he
    have hs := State.alu_sets (w := 8) (by decide) (s.readLoc8 l).2 op (s.at8 l) 1
    have hc := ((State.readLoc8_changes s l).trans (State.alu_changes (s.readLoc8 l).2 op (s.at8 l) 1)).trans
      (State.setFlag_changes _ .cf (s.flag .cf))
    have hm : Memory.wf (((s.readLoc8 l).2.alu op (s.at8 l) 1).2.setFlag .cf (s.flag .cf)).mem = true := by simpa using hw
    have hd : op.drawn = 0 := by rcases hop with rfl | rfl <;> rfl
    have hval : ∀ c, op.value (s.at8 l) 1 c = op.value (s.at8 l) 1 false := by rcases hop with rfl | rfl <;> simp [AluOp.value]
    have hovf : ∀ c, op.overflows (s.at8 l) 1 c = op.overflows (s.at8 l) 1 false := by
      rcases hop with rfl | rfl <;> simp [AluOp.overflows, AluOp.value, AluOp.exact, AluOp.carryIn]
    have hhalf : ∀ c d, some ((op.halfCarry (s.at8 l) 1 c).getD d) = op.halfCarry (s.at8 l) 1 false := by
      rcases hop with rfl | rfl <;> simp [AluOp.halfCarry, AluOp.carryIn]
    obtain ⟨-, h2, h3, h4⟩ := hs
    rw [hval] at h4
    rw [hovf] at h2
    have hc2 := hc.trans (State.writeLoc8_changes _ l (op.value (s.at8 l) 1 false) hm)
    rw [← he] at hc2
    refine ⟨?_, ?_, ?_, ?_, ?_⟩
    · rw [he, State.at8_writeLoc8 _ _ _ hm]
    · rw [he, State.flag_writeLoc8, State.flag_setFlag, if_neg (by decide), h2]
    · rw [he, State.flag_writeLoc8, State.flag_setFlag, if_neg (by decide), h3, hhalf]
    · rw [he]
      simpa [Describes, State.flag_setFlag] using h4
    · have hm3 := hc2.mono (f := { halves := l.halves, flags := sixFlags, stores := l.stores8, last := l.last8 })
        (by constructor <;> simp [Effect.andThen, sixFlags, hd])
      refine { hm3 with flags := fun _ k hk => ?_ }
      by_cases hcf : k = Flag.bit .cf
      · rw [he, State.writeLoc8_flags, State.flags_setFlag_getLsbD, if_pos hcf, hcf]; rfl
      · exact hm3.flags rfl k (by
          intro f hf
          rcases List.mem_cons.1 hf with rfl | hf
          · exact fun h => hcf h.symm
          · exact hk f hf)
  cases down
  · exact key .add (.inl rfl) (by simp [State.incDec8, State.alu, State.addC, AluOp.value, addCResult_eq])
  · exact key .sub (.inr rfl) (by simp [State.incDec8, State.alu, State.subB, AluOp.value, subBResult_eq])

/-- NEG of a byte place. -/
theorem State.neg8_law (s : State) (l : Loc Reg8) (hw : Memory.wf s.mem = true) :
    (s.neg8 l).at8 l = -s.at8 l ∧ AluOp.Sets .sub 0 (s.at8 l) false s.draws (s.neg8 l) ∧
    Changes { halves := l.halves, flags := sixFlags, stores := l.stores8, last := l.last8 } s (s.neg8 l) := by
  have hs := State.alu_sets (w := 8) (by decide) (s.readLoc8 l).2 .sub 0 (s.at8 l)
  have hc := (State.readLoc8_changes s l).trans (State.alu_changes (s.readLoc8 l).2 .sub 0 (s.at8 l))
  rw [State.flag_readLoc8, State.readLoc8_draws] at hs
  have he : s.neg8 l = ((s.readLoc8 l).2.alu .sub 0 (s.at8 l)).2.writeLoc8 l (-s.at8 l) := by
    simp [State.neg8, State.alu, State.subB, subBResult_eq]
  have hm : Memory.wf ((s.readLoc8 l).2.alu .sub 0 (s.at8 l)).2.mem = true := by simpa using hw
  rw [he, State.at8_writeLoc8 _ _ _ hm]
  exact ⟨rfl, hs.congr (by simp),
    (hc.trans (State.writeLoc8_changes _ l _ hm)).mono (by constructor <;> simp [Effect.andThen, AluOp.drawn])⟩

/-- NOT of a byte place. -/
theorem State.not8_law (s : State) (l : Loc Reg8) (hw : Memory.wf s.mem = true) :
    (s.not8 l).at8 l = ~~~s.at8 l ∧
    Changes { halves := l.halves, stores := l.stores8, last := l.last8 } s (s.not8 l) := by
  have hm : Memory.wf (s.readLoc8 l).2.mem = true := by simpa using hw
  have h1 : ∀ a : Byte, a ^^^ 0xFF = ~~~a := by intro a; rw [← BitVec.xor_allOnes]; rfl
  have he : s.not8 l = (s.readLoc8 l).2.writeLoc8 l (~~~s.at8 l) := by simp only [State.not8, State.readLoc8_value, h1]
  rw [he, State.at8_writeLoc8 _ _ _ hm]
  exact ⟨rfl, ((State.readLoc8_changes s l).trans (State.writeLoc8_changes _ l _ hm)).mono
    (by constructor <;> simp [Effect.andThen])⟩

/-- A two-operand operation on a word place. -/
theorem State.alu16_law (s : State) (op : AluOp) (l : Loc Reg16) (b : Word) (hw : Memory.wf s.mem = true) :
    (s.alu16 op l b).at16 l = (if op = .cmp then s.at16 l else op.value (s.at16 l) b (s.flag .cf)) ∧
    op.Sets (s.at16 l) b (s.flag .cf) s.draws (s.alu16 op l b) ∧
    Changes { regs := if op = .cmp then [] else l.regs
              flags := sixFlags
              stores := if op = .cmp then [] else l.stores16
              last := l.last16
              draws := op.drawn } s (s.alu16 op l b) := by
  have hs := State.alu_sets (w := 16) (by decide) (s.readLoc16 l).2 op (s.at16 l) b
  have hv := State.alu_value (s.readLoc16 l).2 op (s.at16 l) b
  have hc := (State.readLoc16_changes s l).trans (State.alu_changes (s.readLoc16 l).2 op (s.at16 l) b)
  rw [State.flag_readLoc16, State.readLoc16_draws] at hs
  rw [State.flag_readLoc16] at hv
  by_cases h : op = .cmp
  · subst h
    have he : s.alu16 .cmp l b = ((s.readLoc16 l).2.alu .cmp (s.at16 l) b).2 := by simp [State.alu16, AluOp.writes]
    rw [he, if_pos rfl]
    exact ⟨State.at16_congr _ (by simp) (by simp) l, hs, hc.mono (by constructor <;> simp [Effect.andThen])⟩
  · have hwr : op.writes = true := by cases op <;> simp_all [AluOp.writes]
    have he : s.alu16 op l b = ((s.readLoc16 l).2.alu op (s.at16 l) b).2.writeLoc16 l (op.value (s.at16 l) b (s.flag .cf)) := by
      simp [State.alu16, hwr, hv]
    have hm : Memory.wf ((s.readLoc16 l).2.alu op (s.at16 l) b).2.mem = true := by simpa using hw
    rw [he, if_neg h, State.at16_writeLoc16 _ _ _ hm]
    exact ⟨rfl, hs.congr (by simp),
      (hc.trans (State.writeLoc16_changes _ l _ hm)).mono (by constructor <;> simp [Effect.andThen, h])⟩

/-- TEST of a word place. -/
theorem State.test16_law (s : State) (l : Loc Reg16) (b : Word) :
    AluOp.Sets .and (s.at16 l) b (s.flag .cf) s.draws (s.test16 l b) ∧
    Changes { flags := sixFlags, last := l.last16, draws := 1 } s (s.test16 l b) := by
  have hs := State.alu_sets (w := 16) (by decide) (s.readLoc16 l).2 .and (s.at16 l) b
  have hc := (State.readLoc16_changes s l).trans (State.alu_changes (s.readLoc16 l).2 .and (s.at16 l) b)
  rw [State.flag_readLoc16, State.readLoc16_draws] at hs
  have he : s.test16 l b = ((s.readLoc16 l).2.alu .and (s.at16 l) b).2 := by simp [State.test16]
  rw [he]
  exact ⟨hs, hc.mono (by constructor <;> simp [Effect.andThen, AluOp.drawn])⟩

/-- INC and DEC of a word place. -/
theorem State.incDec16_law (s : State) (down : Bool) (l : Loc Reg16) (hw : Memory.wf s.mem = true) :
    (s.incDec16 down l).at16 l = AluOp.value (if down then .sub else .add) (s.at16 l) 1 false ∧
    (s.incDec16 down l).flag .ofl = AluOp.overflows (if down then .sub else .add) (s.at16 l) 1 false ∧
    some ((s.incDec16 down l).flag .af) = AluOp.halfCarry (if down then .sub else .add) (s.at16 l) 1 false ∧
    Describes (s.incDec16 down l) (AluOp.value (if down then .sub else .add) (s.at16 l) 1 false) ∧
    Changes { regs := l.regs, flags := [.pf, .af, .zf, .sf, .ofl], stores := l.stores16, last := l.last16 }
      s (s.incDec16 down l) := by
  have key : ∀ op : AluOp, op = .add ∨ op = .sub →
      s.incDec16 down l = (((s.readLoc16 l).2.alu op (s.at16 l) 1).2.setFlag .cf (s.flag .cf)).writeLoc16 l
        (op.value (s.at16 l) 1 false) →
      (s.incDec16 down l).at16 l = op.value (s.at16 l) 1 false ∧
      (s.incDec16 down l).flag .ofl = op.overflows (s.at16 l) 1 false ∧
      some ((s.incDec16 down l).flag .af) = op.halfCarry (s.at16 l) 1 false ∧
      Describes (s.incDec16 down l) (op.value (s.at16 l) 1 false) ∧
      Changes { regs := l.regs, flags := [.pf, .af, .zf, .sf, .ofl], stores := l.stores16, last := l.last16 }
        s (s.incDec16 down l) := by
    intro op hop he
    have hs := State.alu_sets (w := 16) (by decide) (s.readLoc16 l).2 op (s.at16 l) 1
    have hc := ((State.readLoc16_changes s l).trans (State.alu_changes (s.readLoc16 l).2 op (s.at16 l) 1)).trans
      (State.setFlag_changes _ .cf (s.flag .cf))
    have hm : Memory.wf (((s.readLoc16 l).2.alu op (s.at16 l) 1).2.setFlag .cf (s.flag .cf)).mem = true := by simpa using hw
    have hd : op.drawn = 0 := by rcases hop with rfl | rfl <;> rfl
    have hval : ∀ c, op.value (s.at16 l) 1 c = op.value (s.at16 l) 1 false := by rcases hop with rfl | rfl <;> simp [AluOp.value]
    have hovf : ∀ c, op.overflows (s.at16 l) 1 c = op.overflows (s.at16 l) 1 false := by
      rcases hop with rfl | rfl <;> simp [AluOp.overflows, AluOp.value, AluOp.exact, AluOp.carryIn]
    have hhalf : ∀ c d, some ((op.halfCarry (s.at16 l) 1 c).getD d) = op.halfCarry (s.at16 l) 1 false := by
      rcases hop with rfl | rfl <;> simp [AluOp.halfCarry, AluOp.carryIn]
    obtain ⟨-, h2, h3, h4⟩ := hs
    rw [hval] at h4
    rw [hovf] at h2
    have hc2 := hc.trans (State.writeLoc16_changes _ l (op.value (s.at16 l) 1 false) hm)
    rw [← he] at hc2
    refine ⟨?_, ?_, ?_, ?_, ?_⟩
    · rw [he, State.at16_writeLoc16 _ _ _ hm]
    · rw [he, State.flag_writeLoc16, State.flag_setFlag, if_neg (by decide), h2]
    · rw [he, State.flag_writeLoc16, State.flag_setFlag, if_neg (by decide), h3, hhalf]
    · rw [he]
      simpa [Describes, State.flag_setFlag] using h4
    · have hm3 := hc2.mono (f := { regs := l.regs, flags := sixFlags, stores := l.stores16, last := l.last16 })
        (by constructor <;> simp [Effect.andThen, sixFlags, hd])
      refine { hm3 with flags := fun _ k hk => ?_ }
      by_cases hcf : k = Flag.bit .cf
      · rw [he, State.writeLoc16_flags, State.flags_setFlag_getLsbD, if_pos hcf, hcf]; rfl
      · exact hm3.flags rfl k (by
          intro f hf
          rcases List.mem_cons.1 hf with rfl | hf
          · exact fun h => hcf h.symm
          · exact hk f hf)
  cases down
  · exact key .add (.inl rfl) (by simp [State.incDec16, State.alu, State.addC, AluOp.value, addCResult_eq])
  · exact key .sub (.inr rfl) (by simp [State.incDec16, State.alu, State.subB, AluOp.value, subBResult_eq])

/-- NEG of a word place. -/
theorem State.neg16_law (s : State) (l : Loc Reg16) (hw : Memory.wf s.mem = true) :
    (s.neg16 l).at16 l = -s.at16 l ∧ AluOp.Sets .sub 0 (s.at16 l) false s.draws (s.neg16 l) ∧
    Changes { regs := l.regs, flags := sixFlags, stores := l.stores16, last := l.last16 } s (s.neg16 l) := by
  have hs := State.alu_sets (w := 16) (by decide) (s.readLoc16 l).2 .sub 0 (s.at16 l)
  have hc := (State.readLoc16_changes s l).trans (State.alu_changes (s.readLoc16 l).2 .sub 0 (s.at16 l))
  rw [State.flag_readLoc16, State.readLoc16_draws] at hs
  have he : s.neg16 l = ((s.readLoc16 l).2.alu .sub 0 (s.at16 l)).2.writeLoc16 l (-s.at16 l) := by
    simp [State.neg16, State.alu, State.subB, subBResult_eq]
  have hm : Memory.wf ((s.readLoc16 l).2.alu .sub 0 (s.at16 l)).2.mem = true := by simpa using hw
  rw [he, State.at16_writeLoc16 _ _ _ hm]
  exact ⟨rfl, hs.congr (by simp),
    (hc.trans (State.writeLoc16_changes _ l _ hm)).mono (by constructor <;> simp [Effect.andThen, AluOp.drawn])⟩

/-- NOT of a word place. -/
theorem State.not16_law (s : State) (l : Loc Reg16) (hw : Memory.wf s.mem = true) :
    (s.not16 l).at16 l = ~~~s.at16 l ∧
    Changes { regs := l.regs, stores := l.stores16, last := l.last16 } s (s.not16 l) := by
  have hm : Memory.wf (s.readLoc16 l).2.mem = true := by simpa using hw
  have h1 : ∀ a : Word, a ^^^ 0xFFFF = ~~~a := by intro a; rw [← BitVec.xor_allOnes]; rfl
  have he : s.not16 l = (s.readLoc16 l).2.writeLoc16 l (~~~s.at16 l) := by simp only [State.not16, State.readLoc16_value, h1]
  rw [he, State.at16_writeLoc16 _ _ _ hm]
  exact ⟨rfl, ((State.readLoc16_changes s l).trans (State.writeLoc16_changes _ l _ hm)).mono
    (by constructor <;> simp [Effect.andThen])⟩

end Sys2Proof.Machine
end

