-- ==== Sys2Proof/Laws/Interrupts.lean ====
section
/-! SUPPORT. The stack's words beside each other, and what taking an interrupt does (60_exceptions.md R520). -/

namespace Sys2Proof.Machine

/-- Two offsets of one segment are the same byte only when they are equal. -/
theorem phys_inj (x a b : Word) : phys x a = phys x b ↔ a = b := by
  constructor
  · intro h
    have h := congrArg BitVec.toNat h
    simp only [phys, BitVec.toNat_setWidth, BitVec.toNat_add, BitVec.toNat_shiftLeft, Nat.shiftLeft_eq] at h
    apply BitVec.eq_of_toNat_eq
    have := x.isLt
    have := a.isLt
    have := b.isLt
    omega
  · rintro rfl; rfl

/-- A word beside a word that is pushed. -/
theorem State.wordAt_push16_ne (s : State) (v o : Word) (hw : Memory.wf s.mem = true)
    (h1 : o ≠ s.reg16 .sp - 2) (h2 : o ≠ s.reg16 .sp - 1) (h3 : o + 1 ≠ s.reg16 .sp - 2) (h4 : o + 1 ≠ s.reg16 .sp - 1) :
    (s.push16 v).wordAt (s.seg .ss) o = s.wordAt (s.seg .ss) o := by
  have hc := (State.push16_changes s v hw).mem
  have k := fun a (ha : a ≠ s.reg16 .sp - 2) (hb : a ≠ s.reg16 .sp - 1) => hc (phys (s.seg .ss) a) (by
    simp only [List.mem_cons, phys_inj, List.not_mem_nil, or_false, not_or]; exact ⟨ha, hb⟩)
  rw [State.wordAt, State.wordAt, k o h1 h2, k (o + 1) h3 h4]

/-- What taking interrupt n does: the entry, and what it changes. -/
theorem State.interrupt_law (s : State) (n : Byte) (hw : Memory.wf s.mem = true) :
    Entered n s.flags s (s.interrupt n) ∧
    Changes { regs := [.sp], segs := [.cs], flags := [.ifl, .tf], stores := s.frameBytes, last := some (vectorEnd n)
              transfer := true, halted := true } s (s.interrupt n) := by
  generalize hs1 : s.push16 s.flags = s1
  generalize hs2 : (s1.setFlag .ifl false).setFlag .tf false = s2
  generalize hs3 : s2.push16 (s.seg .cs) = s3
  generalize hs4 : s3.push16 s.ip = s4
  generalize hu : (s4.read16 0 (zext16 n * 4)).2.read16 0 (zext16 n * 4 + 2) = u
  have sp1 : s1.reg16 .sp = s.reg16 .sp - 2 := by rw [← hs1, State.reg16_push16, if_pos rfl]
  have sp2 : s2.reg16 .sp = s.reg16 .sp - 2 := by rw [← hs2]; simpa using sp1
  have sp3 : s3.reg16 .sp = s.reg16 .sp - 4 := by rw [← hs3, State.reg16_push16, if_pos rfl, sp2]; bv_omega
  have sp4 : s4.reg16 .sp = s.reg16 .sp - 6 := by rw [← hs4, State.reg16_push16, if_pos rfl, sp3]; bv_omega
  have g1 : ∀ g, s1.seg g = s.seg g := fun g => by rw [← hs1]; simp
  have g2 : ∀ g, s2.seg g = s.seg g := fun g => by rw [← hs2]; simpa using g1 g
  have g3 : ∀ g, s3.seg g = s.seg g := fun g => by rw [← hs3]; simpa using g2 g
  have g4 : ∀ g, s4.seg g = s.seg g := fun g => by rw [← hs4]; simpa using g3 g
  have i3 : s3.ip = s.ip := by rw [← hs3, ← hs2, ← hs1]; simp
  have w1 : Memory.wf s1.mem = true := by rw [← hs1]; exact State.push16_wf _ _ hw
  have w2 : Memory.wf s2.mem = true := by rw [← hs2]; simpa using w1
  have w3 : Memory.wf s3.mem = true := by rw [← hs3]; exact State.push16_wf _ _ w2
  have he : s.interrupt n = ({ u.2 with halted := false } : State).farJump u.1 (s4.read16 0 (zext16 n * 4)).1 := by
    rw [State.interrupt]
    simp only [hs1, hs2, g2, hs3, i3, hs4, hu]
  have hm2 : ∀ x o, s2.wordAt x o = s1.wordAt x o := fun x o => State.wordAt_congr s1 (by rw [← hs2]; simp) x o
  have ht : ∀ x o, (s.interrupt n).wordAt x o = s4.wordAt x o := fun x o => State.wordAt_congr s4 (by
    rw [he, ← hu]; simp) x o
  have f1 : s4.wordAt (s.seg .ss) (s.reg16 .sp - 2) = s.flags := by
    have a := State.wordAt_push16_ne s3 s.ip (s.reg16 .sp - 2) w3 (by rw [sp3]; bv_omega) (by rw [sp3]; bv_omega)
      (by rw [sp3]; bv_omega) (by rw [sp3]; bv_omega)
    have b := State.wordAt_push16_ne s2 (s.seg .cs) (s.reg16 .sp - 2) w2 (by rw [sp2]; bv_omega) (by rw [sp2]; bv_omega)
      (by rw [sp2]; bv_omega) (by rw [sp2]; bv_omega)
    rw [hs4, g3] at a
    rw [hs3, g2] at b
    rw [a, b, hm2, ← hs1, State.wordAt_push16 s _ hw]
  have f2 : s4.wordAt (s.seg .ss) (s.reg16 .sp - 4) = s.seg .cs := by
    have a := State.wordAt_push16_ne s3 s.ip (s.reg16 .sp - 4) w3 (by rw [sp3]; bv_omega) (by rw [sp3]; bv_omega)
      (by rw [sp3]; bv_omega) (by rw [sp3]; bv_omega)
    have b := State.wordAt_push16 s2 (s.seg .cs) w2
    rw [hs4, g3] at a
    rw [hs3, g2, sp2] at b
    rw [a, ← b]; congr 1; bv_omega
  have f3 : s4.wordAt (s.seg .ss) (s.reg16 .sp - 6) = s.ip := by
    have b := State.wordAt_push16 s3 s.ip w3
    rw [hs4, g3, sp3] at b
    rw [← b]; congr 1; bv_omega
  have z : zext16 n * 4 = BitVec.ofNat 16 (4 * n.toNat) := by
    apply BitVec.eq_of_toNat_eq; simp [zext16]; omega
  have z2 : zext16 n * 4 + 2 = BitVec.ofNat 16 (4 * n.toNat + 2) := by
    rw [z]; apply BitVec.eq_of_toNat_eq; simp
  have z3 : zext16 n * 4 + 2 + 1 = BitVec.ofNat 16 (4 * n.toNat + 3) := by
    rw [z2]; apply BitVec.eq_of_toNat_eq; simp
  have u1 : u.1 = s4.wordAt 0 (BitVec.ofNat 16 (4 * n.toNat + 2)) := by
    rw [← hu, State.read16_value, ← z2]; exact State.wordAt_congr s4 (by simp) _ _
  have fl : (s.interrupt n).flags = s2.flags := by rw [he, ← hu, ← hs4, ← hs3]; simp
  constructor
  · refine ⟨?_, ?_, ?_, ?_, ?_, ?_, ?_, ?_, ?_⟩
    · rw [he, ← sp4, ← hu]; simp [State.reg16]
    · rw [ht, f1]
    · rw [ht, f2]
    · rw [ht, f3]
    · rw [State.flag, fl, ← hs2]; exact (State.flag_setFlag _ _ _ _).trans (by simp)
    · rw [State.flag, fl, ← hs2]; exact State.flag_setFlag_self _ _ _
    · rw [he]; simp
    · rw [ht, he, State.seg_farJump, if_pos rfl, u1]
    · rw [ht, he, ← z]; exact State.farJump_landsAt _ _ _
  · have c1 := State.push16_changes s s.flags hw
    have c2 := (State.setFlag_changes s1 .ifl false).trans (State.setFlag_changes _ .tf false)
    have c3 := State.push16_changes s2 (s.seg .cs) w2
    have c4 := State.push16_changes s3 s.ip w3
    have c5 := (State.read16_changes s4 0 (zext16 n * 4)).trans (State.read16_changes _ 0 (zext16 n * 4 + 2))
    rw [hs1] at c1
    rw [hs2] at c2
    rw [hs3, g2, sp2] at c3
    rw [hs4, g3, sp3] at c4
    rw [hu, z3] at c5
    have e : ∀ a b : Word, a = b → phys (s.seg .ss) a = phys (s.seg .ss) b := fun a b h => by rw [h]
    have e3 := e (s.reg16 .sp - 2 - 1) (s.reg16 .sp - 3) (by bv_omega)
    have e4 := e (s.reg16 .sp - 2 - 2) (s.reg16 .sp - 4) (by bv_omega)
    have e5 := e (s.reg16 .sp - 4 - 1) (s.reg16 .sp - 5) (by bv_omega)
    have e6 := e (s.reg16 .sp - 4 - 2) (s.reg16 .sp - 6) (by bv_omega)
    rw [e3, e4] at c3
    rw [e5, e6] at c4
    have c6 := ((((c1.trans c2).trans c3).trans c4).trans c5).mono
      (f := { regs := [.sp], flags := [.ifl, .tf], stores := s.frameBytes, last := some (vectorEnd n), halted := true })
      (by constructor <;> simp [Effect.andThen, State.frameBytes, vectorEnd])
    have c7 : Changes { regs := [.sp], flags := [.ifl, .tf], stores := s.frameBytes, last := some (vectorEnd n),
                        halted := true } s { u.2 with halted := false } :=
      { c6 with halted := fun h => absurd h (by simp) }
    rw [he]
    exact (c7.trans (State.farJump_changes _ _ _)).mono (by constructor <;> simp [Effect.andThen])

end Sys2Proof.Machine
end

