-- ==== Sys2Proof/Laws/PerInstr.lean ====
section
/-! SUPPORT. A statement of every instruction as syntax, one lemma per constructor: its encoding has between one and
`maxLength` bytes (30_encoding.md R127). -/

set_option Elab.async false

namespace Sys2Proof.Laws.EncodedLength

/-- The encoding has at least one byte and at most `maxLength`. -/
def Statement (i : Instr) : Prop := 1 ≤ (encode i).length ∧ (encode i).length ≤ maxLength

theorem encodeMem_length (r : BitVec 3) (m : MemOp) : 1 ≤ (encodeMem r m).length ∧ (encodeMem r m).length ≤ 3 := by
  cases m with
  | direct o => simp [encodeMem, wordBytes]
  | base b d => cases d <;> simp [encodeMem, wordBytes]

theorem encodeRm8_length (r : BitVec 3) (e : Rm8) : 1 ≤ (encodeRm8 r e).length ∧ (encodeRm8 r e).length ≤ 3 := by
  cases e with
  | reg x => simp [encodeRm8]
  | mem m => exact encodeMem_length r m

theorem encodeRm16_length (r : BitVec 3) (e : Rm16) : 1 ≤ (encodeRm16 r e).length ∧ (encodeRm16 r e).length ≤ 3 := by
  cases e with
  | reg x => simp [encodeRm16]
  | mem m => exact encodeMem_length r m

/-- An opcode, an operand of up to three bytes, and up to two more bytes. -/
theorem of_operand (op : Byte) {l : List Byte} (tail : List Byte) (h : 1 ≤ l.length ∧ l.length ≤ 3) (ht : tail.length ≤ 2) :
    1 ≤ (op :: l ++ tail).length ∧ (op :: l ++ tail).length ≤ maxLength := by
  simp only [List.cons_append, List.length_cons, List.length_append, maxLength]; omega

theorem of_operand_only (op : Byte) {l : List Byte} (h : 1 ≤ l.length ∧ l.length ≤ 3) :
    1 ≤ (op :: l).length ∧ (op :: l).length ≤ maxLength := by
  simp only [List.length_cons, maxLength]; omega

theorem addEbGb (e : Rm8) (g : Reg8) : Statement (.addEbGb e g) :=
  of_operand_only _ (encodeRm8_length _ e)

theorem addEwGw (e : Rm16) (g : Reg16) : Statement (.addEwGw e g) :=
  of_operand_only _ (encodeRm16_length _ e)

theorem addGbEb (g : Reg8) (e : Rm8) : Statement (.addGbEb g e) :=
  of_operand_only _ (encodeRm8_length _ e)

theorem addGwEw (g : Reg16) (e : Rm16) : Statement (.addGwEw g e) :=
  of_operand_only _ (encodeRm16_length _ e)

theorem addAlIb (i : Byte) : Statement (.addAlIb i) :=
  ⟨Nat.le_add_left _ _, by simp [encode, maxLength]⟩

theorem addAxIw (i : Word) : Statement (.addAxIw i) :=
  ⟨Nat.le_add_left _ _, by simp [encode, wordBytes, maxLength]⟩

theorem orEbGb (e : Rm8) (g : Reg8) : Statement (.orEbGb e g) :=
  of_operand_only _ (encodeRm8_length _ e)

theorem orEwGw (e : Rm16) (g : Reg16) : Statement (.orEwGw e g) :=
  of_operand_only _ (encodeRm16_length _ e)

theorem orGbEb (g : Reg8) (e : Rm8) : Statement (.orGbEb g e) :=
  of_operand_only _ (encodeRm8_length _ e)

theorem orGwEw (g : Reg16) (e : Rm16) : Statement (.orGwEw g e) :=
  of_operand_only _ (encodeRm16_length _ e)

theorem orAlIb (i : Byte) : Statement (.orAlIb i) :=
  ⟨Nat.le_add_left _ _, by simp [encode, maxLength]⟩

theorem orAxIw (i : Word) : Statement (.orAxIw i) :=
  ⟨Nat.le_add_left _ _, by simp [encode, wordBytes, maxLength]⟩

theorem adcEbGb (e : Rm8) (g : Reg8) : Statement (.adcEbGb e g) :=
  of_operand_only _ (encodeRm8_length _ e)

theorem adcEwGw (e : Rm16) (g : Reg16) : Statement (.adcEwGw e g) :=
  of_operand_only _ (encodeRm16_length _ e)

theorem adcGbEb (g : Reg8) (e : Rm8) : Statement (.adcGbEb g e) :=
  of_operand_only _ (encodeRm8_length _ e)

theorem adcGwEw (g : Reg16) (e : Rm16) : Statement (.adcGwEw g e) :=
  of_operand_only _ (encodeRm16_length _ e)

theorem adcAlIb (i : Byte) : Statement (.adcAlIb i) :=
  ⟨Nat.le_add_left _ _, by simp [encode, maxLength]⟩

theorem adcAxIw (i : Word) : Statement (.adcAxIw i) :=
  ⟨Nat.le_add_left _ _, by simp [encode, wordBytes, maxLength]⟩

theorem sbbEbGb (e : Rm8) (g : Reg8) : Statement (.sbbEbGb e g) :=
  of_operand_only _ (encodeRm8_length _ e)

theorem sbbEwGw (e : Rm16) (g : Reg16) : Statement (.sbbEwGw e g) :=
  of_operand_only _ (encodeRm16_length _ e)

theorem sbbGbEb (g : Reg8) (e : Rm8) : Statement (.sbbGbEb g e) :=
  of_operand_only _ (encodeRm8_length _ e)

theorem sbbGwEw (g : Reg16) (e : Rm16) : Statement (.sbbGwEw g e) :=
  of_operand_only _ (encodeRm16_length _ e)

theorem sbbAlIb (i : Byte) : Statement (.sbbAlIb i) :=
  ⟨Nat.le_add_left _ _, by simp [encode, maxLength]⟩

theorem sbbAxIw (i : Word) : Statement (.sbbAxIw i) :=
  ⟨Nat.le_add_left _ _, by simp [encode, wordBytes, maxLength]⟩

theorem andEbGb (e : Rm8) (g : Reg8) : Statement (.andEbGb e g) :=
  of_operand_only _ (encodeRm8_length _ e)

theorem andEwGw (e : Rm16) (g : Reg16) : Statement (.andEwGw e g) :=
  of_operand_only _ (encodeRm16_length _ e)

theorem andGbEb (g : Reg8) (e : Rm8) : Statement (.andGbEb g e) :=
  of_operand_only _ (encodeRm8_length _ e)

theorem andGwEw (g : Reg16) (e : Rm16) : Statement (.andGwEw g e) :=
  of_operand_only _ (encodeRm16_length _ e)

theorem andAlIb (i : Byte) : Statement (.andAlIb i) :=
  ⟨Nat.le_add_left _ _, by simp [encode, maxLength]⟩

theorem andAxIw (i : Word) : Statement (.andAxIw i) :=
  ⟨Nat.le_add_left _ _, by simp [encode, wordBytes, maxLength]⟩

theorem subEbGb (e : Rm8) (g : Reg8) : Statement (.subEbGb e g) :=
  of_operand_only _ (encodeRm8_length _ e)

theorem subEwGw (e : Rm16) (g : Reg16) : Statement (.subEwGw e g) :=
  of_operand_only _ (encodeRm16_length _ e)

theorem subGbEb (g : Reg8) (e : Rm8) : Statement (.subGbEb g e) :=
  of_operand_only _ (encodeRm8_length _ e)

theorem subGwEw (g : Reg16) (e : Rm16) : Statement (.subGwEw g e) :=
  of_operand_only _ (encodeRm16_length _ e)

theorem subAlIb (i : Byte) : Statement (.subAlIb i) :=
  ⟨Nat.le_add_left _ _, by simp [encode, maxLength]⟩

theorem subAxIw (i : Word) : Statement (.subAxIw i) :=
  ⟨Nat.le_add_left _ _, by simp [encode, wordBytes, maxLength]⟩

theorem xorEbGb (e : Rm8) (g : Reg8) : Statement (.xorEbGb e g) :=
  of_operand_only _ (encodeRm8_length _ e)

theorem xorEwGw (e : Rm16) (g : Reg16) : Statement (.xorEwGw e g) :=
  of_operand_only _ (encodeRm16_length _ e)

theorem xorGbEb (g : Reg8) (e : Rm8) : Statement (.xorGbEb g e) :=
  of_operand_only _ (encodeRm8_length _ e)

theorem xorGwEw (g : Reg16) (e : Rm16) : Statement (.xorGwEw g e) :=
  of_operand_only _ (encodeRm16_length _ e)

theorem xorAlIb (i : Byte) : Statement (.xorAlIb i) :=
  ⟨Nat.le_add_left _ _, by simp [encode, maxLength]⟩

theorem xorAxIw (i : Word) : Statement (.xorAxIw i) :=
  ⟨Nat.le_add_left _ _, by simp [encode, wordBytes, maxLength]⟩

theorem cmpEbGb (e : Rm8) (g : Reg8) : Statement (.cmpEbGb e g) :=
  of_operand_only _ (encodeRm8_length _ e)

theorem cmpEwGw (e : Rm16) (g : Reg16) : Statement (.cmpEwGw e g) :=
  of_operand_only _ (encodeRm16_length _ e)

theorem cmpGbEb (g : Reg8) (e : Rm8) : Statement (.cmpGbEb g e) :=
  of_operand_only _ (encodeRm8_length _ e)

theorem cmpGwEw (g : Reg16) (e : Rm16) : Statement (.cmpGwEw g e) :=
  of_operand_only _ (encodeRm16_length _ e)

theorem cmpAlIb (i : Byte) : Statement (.cmpAlIb i) :=
  ⟨Nat.le_add_left _ _, by simp [encode, maxLength]⟩

theorem cmpAxIw (i : Word) : Statement (.cmpAxIw i) :=
  ⟨Nat.le_add_left _ _, by simp [encode, wordBytes, maxLength]⟩

theorem pushEs : Statement .pushEs :=
  ⟨Nat.le_add_left _ _, by simp [encode, maxLength]⟩

theorem popEs : Statement .popEs :=
  ⟨Nat.le_add_left _ _, by simp [encode, maxLength]⟩

theorem segEs : Statement .segEs :=
  ⟨Nat.le_add_left _ _, by simp [encode, maxLength]⟩

theorem pushCs : Statement .pushCs :=
  ⟨Nat.le_add_left _ _, by simp [encode, maxLength]⟩

theorem segCs : Statement .segCs :=
  ⟨Nat.le_add_left _ _, by simp [encode, maxLength]⟩

theorem pushSs : Statement .pushSs :=
  ⟨Nat.le_add_left _ _, by simp [encode, maxLength]⟩

theorem popSs : Statement .popSs :=
  ⟨Nat.le_add_left _ _, by simp [encode, maxLength]⟩

theorem segSs : Statement .segSs :=
  ⟨Nat.le_add_left _ _, by simp [encode, maxLength]⟩

theorem pushDs : Statement .pushDs :=
  ⟨Nat.le_add_left _ _, by simp [encode, maxLength]⟩

theorem popDs : Statement .popDs :=
  ⟨Nat.le_add_left _ _, by simp [encode, maxLength]⟩

theorem segDs : Statement .segDs :=
  ⟨Nat.le_add_left _ _, by simp [encode, maxLength]⟩

theorem daa : Statement .daa :=
  ⟨Nat.le_add_left _ _, by simp [encode, maxLength]⟩

theorem das : Statement .das :=
  ⟨Nat.le_add_left _ _, by simp [encode, maxLength]⟩

theorem aaa : Statement .aaa :=
  ⟨Nat.le_add_left _ _, by simp [encode, maxLength]⟩

theorem aas : Statement .aas :=
  ⟨Nat.le_add_left _ _, by simp [encode, maxLength]⟩

theorem incR16 (r : Reg16) : Statement (.incR16 r) :=
  ⟨Nat.le_add_left _ _, by simp [encode, maxLength]⟩

theorem decR16 (r : Reg16) : Statement (.decR16 r) :=
  ⟨Nat.le_add_left _ _, by simp [encode, maxLength]⟩

theorem pushR16 (r : Reg16) : Statement (.pushR16 r) :=
  ⟨Nat.le_add_left _ _, by simp [encode, maxLength]⟩

theorem popR16 (r : Reg16) : Statement (.popR16 r) :=
  ⟨Nat.le_add_left _ _, by simp [encode, maxLength]⟩

theorem joJb (d : Byte) : Statement (.joJb d) :=
  ⟨Nat.le_add_left _ _, by simp [encode, maxLength]⟩

theorem jnoJb (d : Byte) : Statement (.jnoJb d) :=
  ⟨Nat.le_add_left _ _, by simp [encode, maxLength]⟩

theorem jbJb (d : Byte) : Statement (.jbJb d) :=
  ⟨Nat.le_add_left _ _, by simp [encode, maxLength]⟩

theorem jaeJb (d : Byte) : Statement (.jaeJb d) :=
  ⟨Nat.le_add_left _ _, by simp [encode, maxLength]⟩

theorem jeJb (d : Byte) : Statement (.jeJb d) :=
  ⟨Nat.le_add_left _ _, by simp [encode, maxLength]⟩

theorem jneJb (d : Byte) : Statement (.jneJb d) :=
  ⟨Nat.le_add_left _ _, by simp [encode, maxLength]⟩

theorem jbeJb (d : Byte) : Statement (.jbeJb d) :=
  ⟨Nat.le_add_left _ _, by simp [encode, maxLength]⟩

theorem jaJb (d : Byte) : Statement (.jaJb d) :=
  ⟨Nat.le_add_left _ _, by simp [encode, maxLength]⟩

theorem jsJb (d : Byte) : Statement (.jsJb d) :=
  ⟨Nat.le_add_left _ _, by simp [encode, maxLength]⟩

theorem jnsJb (d : Byte) : Statement (.jnsJb d) :=
  ⟨Nat.le_add_left _ _, by simp [encode, maxLength]⟩

theorem jpJb (d : Byte) : Statement (.jpJb d) :=
  ⟨Nat.le_add_left _ _, by simp [encode, maxLength]⟩

theorem jnpJb (d : Byte) : Statement (.jnpJb d) :=
  ⟨Nat.le_add_left _ _, by simp [encode, maxLength]⟩

theorem jlJb (d : Byte) : Statement (.jlJb d) :=
  ⟨Nat.le_add_left _ _, by simp [encode, maxLength]⟩

theorem jgeJb (d : Byte) : Statement (.jgeJb d) :=
  ⟨Nat.le_add_left _ _, by simp [encode, maxLength]⟩

theorem jleJb (d : Byte) : Statement (.jleJb d) :=
  ⟨Nat.le_add_left _ _, by simp [encode, maxLength]⟩

theorem jgJb (d : Byte) : Statement (.jgJb d) :=
  ⟨Nat.le_add_left _ _, by simp [encode, maxLength]⟩

theorem addEbIb (e : Rm8) (i : Byte) : Statement (.addEbIb e i) :=
  of_operand _ [i] (encodeRm8_length _ e) (by simp)

theorem addEwIw (e : Rm16) (i : Word) : Statement (.addEwIw e i) :=
  of_operand _ (wordBytes i) (encodeRm16_length _ e) (by simp [wordBytes])

theorem addEbIb82 (e : Rm8) (i : Byte) : Statement (.addEbIb82 e i) :=
  of_operand _ [i] (encodeRm8_length _ e) (by simp)

theorem addEwIbSx (e : Rm16) (i : Byte) : Statement (.addEwIbSx e i) :=
  of_operand _ [i] (encodeRm16_length _ e) (by simp)

theorem orEbIb (e : Rm8) (i : Byte) : Statement (.orEbIb e i) :=
  of_operand _ [i] (encodeRm8_length _ e) (by simp)

theorem orEwIw (e : Rm16) (i : Word) : Statement (.orEwIw e i) :=
  of_operand _ (wordBytes i) (encodeRm16_length _ e) (by simp [wordBytes])

theorem adcEbIb (e : Rm8) (i : Byte) : Statement (.adcEbIb e i) :=
  of_operand _ [i] (encodeRm8_length _ e) (by simp)

theorem adcEwIw (e : Rm16) (i : Word) : Statement (.adcEwIw e i) :=
  of_operand _ (wordBytes i) (encodeRm16_length _ e) (by simp [wordBytes])

theorem adcEbIb82 (e : Rm8) (i : Byte) : Statement (.adcEbIb82 e i) :=
  of_operand _ [i] (encodeRm8_length _ e) (by simp)

theorem adcEwIbSx (e : Rm16) (i : Byte) : Statement (.adcEwIbSx e i) :=
  of_operand _ [i] (encodeRm16_length _ e) (by simp)

theorem sbbEbIb (e : Rm8) (i : Byte) : Statement (.sbbEbIb e i) :=
  of_operand _ [i] (encodeRm8_length _ e) (by simp)

theorem sbbEwIw (e : Rm16) (i : Word) : Statement (.sbbEwIw e i) :=
  of_operand _ (wordBytes i) (encodeRm16_length _ e) (by simp [wordBytes])

theorem sbbEbIb82 (e : Rm8) (i : Byte) : Statement (.sbbEbIb82 e i) :=
  of_operand _ [i] (encodeRm8_length _ e) (by simp)

theorem sbbEwIbSx (e : Rm16) (i : Byte) : Statement (.sbbEwIbSx e i) :=
  of_operand _ [i] (encodeRm16_length _ e) (by simp)

theorem andEbIb (e : Rm8) (i : Byte) : Statement (.andEbIb e i) :=
  of_operand _ [i] (encodeRm8_length _ e) (by simp)

theorem andEwIw (e : Rm16) (i : Word) : Statement (.andEwIw e i) :=
  of_operand _ (wordBytes i) (encodeRm16_length _ e) (by simp [wordBytes])

theorem subEbIb (e : Rm8) (i : Byte) : Statement (.subEbIb e i) :=
  of_operand _ [i] (encodeRm8_length _ e) (by simp)

theorem subEwIw (e : Rm16) (i : Word) : Statement (.subEwIw e i) :=
  of_operand _ (wordBytes i) (encodeRm16_length _ e) (by simp [wordBytes])

theorem subEbIb82 (e : Rm8) (i : Byte) : Statement (.subEbIb82 e i) :=
  of_operand _ [i] (encodeRm8_length _ e) (by simp)

theorem subEwIbSx (e : Rm16) (i : Byte) : Statement (.subEwIbSx e i) :=
  of_operand _ [i] (encodeRm16_length _ e) (by simp)

theorem xorEbIb (e : Rm8) (i : Byte) : Statement (.xorEbIb e i) :=
  of_operand _ [i] (encodeRm8_length _ e) (by simp)

theorem xorEwIw (e : Rm16) (i : Word) : Statement (.xorEwIw e i) :=
  of_operand _ (wordBytes i) (encodeRm16_length _ e) (by simp [wordBytes])

theorem cmpEbIb (e : Rm8) (i : Byte) : Statement (.cmpEbIb e i) :=
  of_operand _ [i] (encodeRm8_length _ e) (by simp)

theorem cmpEwIw (e : Rm16) (i : Word) : Statement (.cmpEwIw e i) :=
  of_operand _ (wordBytes i) (encodeRm16_length _ e) (by simp [wordBytes])

theorem cmpEbIb82 (e : Rm8) (i : Byte) : Statement (.cmpEbIb82 e i) :=
  of_operand _ [i] (encodeRm8_length _ e) (by simp)

theorem cmpEwIbSx (e : Rm16) (i : Byte) : Statement (.cmpEwIbSx e i) :=
  of_operand _ [i] (encodeRm16_length _ e) (by simp)

theorem testEbGb (e : Rm8) (g : Reg8) : Statement (.testEbGb e g) :=
  of_operand_only _ (encodeRm8_length _ e)

theorem testEwGw (e : Rm16) (g : Reg16) : Statement (.testEwGw e g) :=
  of_operand_only _ (encodeRm16_length _ e)

theorem xchgEbGb (e : Rm8) (g : Reg8) : Statement (.xchgEbGb e g) :=
  of_operand_only _ (encodeRm8_length _ e)

theorem xchgEwGw (e : Rm16) (g : Reg16) : Statement (.xchgEwGw e g) :=
  of_operand_only _ (encodeRm16_length _ e)

theorem movEbGb (e : Rm8) (g : Reg8) : Statement (.movEbGb e g) :=
  of_operand_only _ (encodeRm8_length _ e)

theorem movEwGw (e : Rm16) (g : Reg16) : Statement (.movEwGw e g) :=
  of_operand_only _ (encodeRm16_length _ e)

theorem movGbEb (g : Reg8) (e : Rm8) : Statement (.movGbEb g e) :=
  of_operand_only _ (encodeRm8_length _ e)

theorem movGwEw (g : Reg16) (e : Rm16) : Statement (.movGwEw g e) :=
  of_operand_only _ (encodeRm16_length _ e)

theorem movEwSw (e : Rm16) (sg : Seg) : Statement (.movEwSw e sg) :=
  of_operand_only _ (encodeRm16_length _ e)

theorem leaGwM (g : Reg16) (m : MemOp) : Statement (.leaGwM g m) :=
  of_operand_only _ (encodeMem_length _ m)

theorem movEsEw (e : Rm16) : Statement (.movEsEw e) :=
  of_operand_only _ (encodeRm16_length _ e)

theorem movSsEw (e : Rm16) : Statement (.movSsEw e) :=
  of_operand_only _ (encodeRm16_length _ e)

theorem movDsEw (e : Rm16) : Statement (.movDsEw e) :=
  of_operand_only _ (encodeRm16_length _ e)

theorem popEw (e : Rm16) : Statement (.popEw e) :=
  of_operand_only _ (encodeRm16_length _ e)

theorem nop : Statement .nop :=
  ⟨Nat.le_add_left _ _, by simp [encode, maxLength]⟩

theorem xchgAxR16 (r : Reg16) : Statement (.xchgAxR16 r) :=
  ⟨Nat.le_add_left _ _, by simp [encode, maxLength]⟩

theorem cbw : Statement .cbw :=
  ⟨Nat.le_add_left _ _, by simp [encode, maxLength]⟩

theorem cwd : Statement .cwd :=
  ⟨Nat.le_add_left _ _, by simp [encode, maxLength]⟩

theorem callAp (o : Word) (sg : Word) : Statement (.callAp o sg) :=
  ⟨Nat.le_add_left _ _, by simp [encode, wordBytes, maxLength]⟩

theorem wait : Statement .wait :=
  ⟨Nat.le_add_left _ _, by simp [encode, maxLength]⟩

theorem pushf : Statement .pushf :=
  ⟨Nat.le_add_left _ _, by simp [encode, maxLength]⟩

theorem popf : Statement .popf :=
  ⟨Nat.le_add_left _ _, by simp [encode, maxLength]⟩

theorem sahf : Statement .sahf :=
  ⟨Nat.le_add_left _ _, by simp [encode, maxLength]⟩

theorem lahf : Statement .lahf :=
  ⟨Nat.le_add_left _ _, by simp [encode, maxLength]⟩

theorem movAlOb (o : Word) : Statement (.movAlOb o) :=
  ⟨Nat.le_add_left _ _, by simp [encode, wordBytes, maxLength]⟩

theorem movAxOw (o : Word) : Statement (.movAxOw o) :=
  ⟨Nat.le_add_left _ _, by simp [encode, wordBytes, maxLength]⟩

theorem movObAl (o : Word) : Statement (.movObAl o) :=
  ⟨Nat.le_add_left _ _, by simp [encode, wordBytes, maxLength]⟩

theorem movOwAx (o : Word) : Statement (.movOwAx o) :=
  ⟨Nat.le_add_left _ _, by simp [encode, wordBytes, maxLength]⟩

theorem movsb : Statement .movsb :=
  ⟨Nat.le_add_left _ _, by simp [encode, maxLength]⟩

theorem movsw : Statement .movsw :=
  ⟨Nat.le_add_left _ _, by simp [encode, maxLength]⟩

theorem cmpsb : Statement .cmpsb :=
  ⟨Nat.le_add_left _ _, by simp [encode, maxLength]⟩

theorem cmpsw : Statement .cmpsw :=
  ⟨Nat.le_add_left _ _, by simp [encode, maxLength]⟩

theorem testAlIb (i : Byte) : Statement (.testAlIb i) :=
  ⟨Nat.le_add_left _ _, by simp [encode, maxLength]⟩

theorem testAxIw (i : Word) : Statement (.testAxIw i) :=
  ⟨Nat.le_add_left _ _, by simp [encode, wordBytes, maxLength]⟩

theorem stosb : Statement .stosb :=
  ⟨Nat.le_add_left _ _, by simp [encode, maxLength]⟩

theorem stosw : Statement .stosw :=
  ⟨Nat.le_add_left _ _, by simp [encode, maxLength]⟩

theorem lodsb : Statement .lodsb :=
  ⟨Nat.le_add_left _ _, by simp [encode, maxLength]⟩

theorem lodsw : Statement .lodsw :=
  ⟨Nat.le_add_left _ _, by simp [encode, maxLength]⟩

theorem scasb : Statement .scasb :=
  ⟨Nat.le_add_left _ _, by simp [encode, maxLength]⟩

theorem scasw : Statement .scasw :=
  ⟨Nat.le_add_left _ _, by simp [encode, maxLength]⟩

theorem movR8Ib (r : Reg8) (i : Byte) : Statement (.movR8Ib r i) :=
  ⟨Nat.le_add_left _ _, by simp [encode, maxLength]⟩

theorem movR16Iw (r : Reg16) (i : Word) : Statement (.movR16Iw r i) :=
  ⟨Nat.le_add_left _ _, by simp [encode, wordBytes, maxLength]⟩

theorem retIw (i : Word) : Statement (.retIw i) :=
  ⟨Nat.le_add_left _ _, by simp [encode, wordBytes, maxLength]⟩

theorem ret : Statement .ret :=
  ⟨Nat.le_add_left _ _, by simp [encode, maxLength]⟩

theorem lesGwMp (g : Reg16) (m : MemOp) : Statement (.lesGwMp g m) :=
  of_operand_only _ (encodeMem_length _ m)

theorem ldsGwMp (g : Reg16) (m : MemOp) : Statement (.ldsGwMp g m) :=
  of_operand_only _ (encodeMem_length _ m)

theorem movEbIb (e : Rm8) (i : Byte) : Statement (.movEbIb e i) :=
  of_operand _ [i] (encodeRm8_length _ e) (by simp)

theorem movEwIw (e : Rm16) (i : Word) : Statement (.movEwIw e i) :=
  of_operand _ (wordBytes i) (encodeRm16_length _ e) (by simp [wordBytes])

theorem retfIw (i : Word) : Statement (.retfIw i) :=
  ⟨Nat.le_add_left _ _, by simp [encode, wordBytes, maxLength]⟩

theorem retf : Statement .retf :=
  ⟨Nat.le_add_left _ _, by simp [encode, maxLength]⟩

theorem int3 : Statement .int3 :=
  ⟨Nat.le_add_left _ _, by simp [encode, maxLength]⟩

theorem intIb (i : Byte) : Statement (.intIb i) :=
  ⟨Nat.le_add_left _ _, by simp [encode, maxLength]⟩

theorem into : Statement .into :=
  ⟨Nat.le_add_left _ _, by simp [encode, maxLength]⟩

theorem iret : Statement .iret :=
  ⟨Nat.le_add_left _ _, by simp [encode, maxLength]⟩

theorem rolEb1 (e : Rm8) : Statement (.rolEb1 e) :=
  of_operand_only _ (encodeRm8_length _ e)

theorem rorEb1 (e : Rm8) : Statement (.rorEb1 e) :=
  of_operand_only _ (encodeRm8_length _ e)

theorem rclEb1 (e : Rm8) : Statement (.rclEb1 e) :=
  of_operand_only _ (encodeRm8_length _ e)

theorem rcrEb1 (e : Rm8) : Statement (.rcrEb1 e) :=
  of_operand_only _ (encodeRm8_length _ e)

theorem shlEb1 (e : Rm8) : Statement (.shlEb1 e) :=
  of_operand_only _ (encodeRm8_length _ e)

theorem shrEb1 (e : Rm8) : Statement (.shrEb1 e) :=
  of_operand_only _ (encodeRm8_length _ e)

theorem sarEb1 (e : Rm8) : Statement (.sarEb1 e) :=
  of_operand_only _ (encodeRm8_length _ e)

theorem rolEw1 (e : Rm16) : Statement (.rolEw1 e) :=
  of_operand_only _ (encodeRm16_length _ e)

theorem rorEw1 (e : Rm16) : Statement (.rorEw1 e) :=
  of_operand_only _ (encodeRm16_length _ e)

theorem rclEw1 (e : Rm16) : Statement (.rclEw1 e) :=
  of_operand_only _ (encodeRm16_length _ e)

theorem rcrEw1 (e : Rm16) : Statement (.rcrEw1 e) :=
  of_operand_only _ (encodeRm16_length _ e)

theorem shlEw1 (e : Rm16) : Statement (.shlEw1 e) :=
  of_operand_only _ (encodeRm16_length _ e)

theorem shrEw1 (e : Rm16) : Statement (.shrEw1 e) :=
  of_operand_only _ (encodeRm16_length _ e)

theorem sarEw1 (e : Rm16) : Statement (.sarEw1 e) :=
  of_operand_only _ (encodeRm16_length _ e)

theorem rolEbCl (e : Rm8) : Statement (.rolEbCl e) :=
  of_operand_only _ (encodeRm8_length _ e)

theorem rorEbCl (e : Rm8) : Statement (.rorEbCl e) :=
  of_operand_only _ (encodeRm8_length _ e)

theorem rclEbCl (e : Rm8) : Statement (.rclEbCl e) :=
  of_operand_only _ (encodeRm8_length _ e)

theorem rcrEbCl (e : Rm8) : Statement (.rcrEbCl e) :=
  of_operand_only _ (encodeRm8_length _ e)

theorem shlEbCl (e : Rm8) : Statement (.shlEbCl e) :=
  of_operand_only _ (encodeRm8_length _ e)

theorem shrEbCl (e : Rm8) : Statement (.shrEbCl e) :=
  of_operand_only _ (encodeRm8_length _ e)

theorem sarEbCl (e : Rm8) : Statement (.sarEbCl e) :=
  of_operand_only _ (encodeRm8_length _ e)

theorem rolEwCl (e : Rm16) : Statement (.rolEwCl e) :=
  of_operand_only _ (encodeRm16_length _ e)

theorem rorEwCl (e : Rm16) : Statement (.rorEwCl e) :=
  of_operand_only _ (encodeRm16_length _ e)

theorem rclEwCl (e : Rm16) : Statement (.rclEwCl e) :=
  of_operand_only _ (encodeRm16_length _ e)

theorem rcrEwCl (e : Rm16) : Statement (.rcrEwCl e) :=
  of_operand_only _ (encodeRm16_length _ e)

theorem shlEwCl (e : Rm16) : Statement (.shlEwCl e) :=
  of_operand_only _ (encodeRm16_length _ e)

theorem shrEwCl (e : Rm16) : Statement (.shrEwCl e) :=
  of_operand_only _ (encodeRm16_length _ e)

theorem sarEwCl (e : Rm16) : Statement (.sarEwCl e) :=
  of_operand_only _ (encodeRm16_length _ e)

theorem aamIb (i : Byte) : Statement (.aamIb i) :=
  ⟨Nat.le_add_left _ _, by simp [encode, maxLength]⟩

theorem aadIb (i : Byte) : Statement (.aadIb i) :=
  ⟨Nat.le_add_left _ _, by simp [encode, maxLength]⟩

theorem xlat : Statement .xlat :=
  ⟨Nat.le_add_left _ _, by simp [encode, maxLength]⟩

theorem esc (x : BitVec 3) (y : BitVec 3) (e : Rm16) : Statement (.esc x y e) :=
  of_operand_only _ (encodeRm16_length _ e)

theorem loopneJb (d : Byte) : Statement (.loopneJb d) :=
  ⟨Nat.le_add_left _ _, by simp [encode, maxLength]⟩

theorem loopeJb (d : Byte) : Statement (.loopeJb d) :=
  ⟨Nat.le_add_left _ _, by simp [encode, maxLength]⟩

theorem loopJb (d : Byte) : Statement (.loopJb d) :=
  ⟨Nat.le_add_left _ _, by simp [encode, maxLength]⟩

theorem jcxzJb (d : Byte) : Statement (.jcxzJb d) :=
  ⟨Nat.le_add_left _ _, by simp [encode, maxLength]⟩

theorem inAlIb (i : Byte) : Statement (.inAlIb i) :=
  ⟨Nat.le_add_left _ _, by simp [encode, maxLength]⟩

theorem inAxIb (i : Byte) : Statement (.inAxIb i) :=
  ⟨Nat.le_add_left _ _, by simp [encode, maxLength]⟩

theorem outIbAl (i : Byte) : Statement (.outIbAl i) :=
  ⟨Nat.le_add_left _ _, by simp [encode, maxLength]⟩

theorem outIbAx (i : Byte) : Statement (.outIbAx i) :=
  ⟨Nat.le_add_left _ _, by simp [encode, maxLength]⟩

theorem callJw (d : Word) : Statement (.callJw d) :=
  ⟨Nat.le_add_left _ _, by simp [encode, wordBytes, maxLength]⟩

theorem jmpJw (d : Word) : Statement (.jmpJw d) :=
  ⟨Nat.le_add_left _ _, by simp [encode, wordBytes, maxLength]⟩

theorem jmpAp (o : Word) (sg : Word) : Statement (.jmpAp o sg) :=
  ⟨Nat.le_add_left _ _, by simp [encode, wordBytes, maxLength]⟩

theorem jmpJb (d : Byte) : Statement (.jmpJb d) :=
  ⟨Nat.le_add_left _ _, by simp [encode, maxLength]⟩

theorem inAlDx : Statement .inAlDx :=
  ⟨Nat.le_add_left _ _, by simp [encode, maxLength]⟩

theorem inAxDx : Statement .inAxDx :=
  ⟨Nat.le_add_left _ _, by simp [encode, maxLength]⟩

theorem outDxAl : Statement .outDxAl :=
  ⟨Nat.le_add_left _ _, by simp [encode, maxLength]⟩

theorem outDxAx : Statement .outDxAx :=
  ⟨Nat.le_add_left _ _, by simp [encode, maxLength]⟩

theorem lock : Statement .lock :=
  ⟨Nat.le_add_left _ _, by simp [encode, maxLength]⟩

theorem repne : Statement .repne :=
  ⟨Nat.le_add_left _ _, by simp [encode, maxLength]⟩

theorem repe : Statement .repe :=
  ⟨Nat.le_add_left _ _, by simp [encode, maxLength]⟩

theorem hlt : Statement .hlt :=
  ⟨Nat.le_add_left _ _, by simp [encode, maxLength]⟩

theorem cmc : Statement .cmc :=
  ⟨Nat.le_add_left _ _, by simp [encode, maxLength]⟩

theorem testEbIb (e : Rm8) (i : Byte) : Statement (.testEbIb e i) :=
  of_operand _ [i] (encodeRm8_length _ e) (by simp)

theorem notEb (e : Rm8) : Statement (.notEb e) :=
  of_operand_only _ (encodeRm8_length _ e)

theorem negEb (e : Rm8) : Statement (.negEb e) :=
  of_operand_only _ (encodeRm8_length _ e)

theorem mulEb (e : Rm8) : Statement (.mulEb e) :=
  of_operand_only _ (encodeRm8_length _ e)

theorem imulEb (e : Rm8) : Statement (.imulEb e) :=
  of_operand_only _ (encodeRm8_length _ e)

theorem divEb (e : Rm8) : Statement (.divEb e) :=
  of_operand_only _ (encodeRm8_length _ e)

theorem idivEb (e : Rm8) : Statement (.idivEb e) :=
  of_operand_only _ (encodeRm8_length _ e)

theorem testEwIw (e : Rm16) (i : Word) : Statement (.testEwIw e i) :=
  of_operand _ (wordBytes i) (encodeRm16_length _ e) (by simp [wordBytes])

theorem notEw (e : Rm16) : Statement (.notEw e) :=
  of_operand_only _ (encodeRm16_length _ e)

theorem negEw (e : Rm16) : Statement (.negEw e) :=
  of_operand_only _ (encodeRm16_length _ e)

theorem mulEw (e : Rm16) : Statement (.mulEw e) :=
  of_operand_only _ (encodeRm16_length _ e)

theorem imulEw (e : Rm16) : Statement (.imulEw e) :=
  of_operand_only _ (encodeRm16_length _ e)

theorem divEw (e : Rm16) : Statement (.divEw e) :=
  of_operand_only _ (encodeRm16_length _ e)

theorem idivEw (e : Rm16) : Statement (.idivEw e) :=
  of_operand_only _ (encodeRm16_length _ e)

theorem incEb (e : Rm8) : Statement (.incEb e) :=
  of_operand_only _ (encodeRm8_length _ e)

theorem decEb (e : Rm8) : Statement (.decEb e) :=
  of_operand_only _ (encodeRm8_length _ e)

theorem incEw (e : Rm16) : Statement (.incEw e) :=
  of_operand_only _ (encodeRm16_length _ e)

theorem decEw (e : Rm16) : Statement (.decEw e) :=
  of_operand_only _ (encodeRm16_length _ e)

theorem callEw (e : Rm16) : Statement (.callEw e) :=
  of_operand_only _ (encodeRm16_length _ e)

theorem callMp (m : MemOp) : Statement (.callMp m) :=
  of_operand_only _ (encodeMem_length _ m)

theorem jmpEw (e : Rm16) : Statement (.jmpEw e) :=
  of_operand_only _ (encodeRm16_length _ e)

theorem jmpMp (m : MemOp) : Statement (.jmpMp m) :=
  of_operand_only _ (encodeMem_length _ m)

theorem pushEw (e : Rm16) : Statement (.pushEw e) :=
  of_operand_only _ (encodeRm16_length _ e)

theorem clc : Statement .clc :=
  ⟨Nat.le_add_left _ _, by simp [encode, maxLength]⟩

theorem stc : Statement .stc :=
  ⟨Nat.le_add_left _ _, by simp [encode, maxLength]⟩

theorem cli : Statement .cli :=
  ⟨Nat.le_add_left _ _, by simp [encode, maxLength]⟩

theorem sti : Statement .sti :=
  ⟨Nat.le_add_left _ _, by simp [encode, maxLength]⟩

theorem cld : Statement .cld :=
  ⟨Nat.le_add_left _ _, by simp [encode, maxLength]⟩

theorem std : Statement .std :=
  ⟨Nat.le_add_left _ _, by simp [encode, maxLength]⟩

end Sys2Proof.Laws.EncodedLength
end

