-- ==== Sys2Proof/Laws/Shifts.lean ====
section
/-! SUPPORT. The shifts and rotates in closed form (43_logic.md R305 to R312). -/

namespace Sys2Proof.Machine

theorem succ_mod {w : Nat} (hw : 0 < w) (n : Nat) :
    (n + 1) % w = if n % w + 1 = w then 0 else n % w + 1 := by
  have h := Nat.mod_lt n hw
  have h2 : (n + 1) % w = (n % w + 1) % w := by rw [Nat.mod_add_mod]
  rw [h2]
  split
  · next h3 => rw [h3, Nat.mod_self]
  · exact Nat.mod_eq_of_lt (by omega)

theorem getLsbD_rotL {w : Nat} (x : BitVec w) (n i : Nat) (hi : i < w) :
    (x.rotateLeft n).getLsbD i = x.getLsbD (if i < n % w then i + w - n % w else i - n % w) := by
  have := Nat.mod_lt n (by omega : 0 < w)
  rw [BitVec.getLsbD_rotateLeft]
  split
  · next h => simp only [h, decide_true, cond_true]; congr 1; omega
  · next h => simp [h, hi]

theorem getLsbD_rotR {w : Nat} (x : BitVec w) (n i : Nat) (hi : i < w) :
    (x.rotateRight n).getLsbD i = x.getLsbD (if i + n % w < w then i + n % w else i + n % w - w) := by
  have := Nat.mod_lt n (by omega : 0 < w)
  rw [BitVec.getLsbD_rotateRight]
  split
  · next h => simp only [show i < w - n % w by omega, decide_true, cond_true]; congr 1; omega
  · next h =>
    simp only [show ¬ i < w - n % w by omega, decide_false, cond_false, hi, decide_true, Bool.true_and]; congr 1; omega

/-- Turning left by one more. -/
theorem rotateLeft_succ {w : Nat} (hw : 0 < w) (x : BitVec w) (n : Nat) :
    (x.rotateLeft 1).rotateLeft n = x.rotateLeft (n + 1) := by
  apply BitVec.eq_of_getLsbD_eq
  intro i hi
  have hn := Nat.mod_lt n hw
  have h1 : 1 % w = if w = 1 then 0 else 1 := by
    split
    · next h => rw [h]
    · exact Nat.mod_eq_of_lt (by omega)
  rw [getLsbD_rotL _ _ _ hi, getLsbD_rotL _ _ _ (by split <;> omega), getLsbD_rotL _ _ _ hi]
  congr 1
  rw [succ_mod hw n, h1]
  generalize n % w = m at *
  split_ifs <;> omega

theorem rotateRight_succ {w : Nat} (hw : 0 < w) (x : BitVec w) (n : Nat) :
    (x.rotateRight 1).rotateRight n = x.rotateRight (n + 1) := by
  apply BitVec.eq_of_getLsbD_eq
  intro i hi
  have hn := Nat.mod_lt n hw
  have h1 : 1 % w = if w = 1 then 0 else 1 := by
    split
    · next h => rw [h]
    · exact Nat.mod_eq_of_lt (by omega)
  rw [getLsbD_rotR _ _ _ hi, getLsbD_rotR _ _ _ (by split <;> omega), getLsbD_rotR _ _ _ hi]
  congr 1
  rw [succ_mod hw n, h1]
  generalize n % w = m at *
  split_ifs <;> omega

theorem getLsbD_ofNat_bool {w : Nat} (b : Bool) (i : Nat) (hi : i < w) :
    (BitVec.ofNat w b.toNat).getLsbD i = (decide (i = 0) && b) := by
  cases b
  · simp
  · simp [BitVec.getLsbD_one]; omega

/-- One turn left. -/
theorem bitStep_rol {w : Nat} (hw : 1 < w) (x : BitVec w) (c : Bool) :
    ShiftOp.bitStep .rol x c = (x.rotateLeft 1, x.msb) := by
  simp only [ShiftOp.bitStep, Prod.mk.injEq, and_true]
  apply BitVec.eq_of_getLsbD_eq
  intro i hi
  rw [getLsbD_rotL _ _ _ hi, Nat.mod_eq_of_lt hw, BitVec.getLsbD_or, BitVec.getLsbD_shiftLeft, getLsbD_ofNat_bool _ _ hi]
  by_cases h : i = 0
  · subst h; simp [BitVec.msb_eq_getLsbD_last]
  · rw [if_neg (by omega)]; simp [h, hi]

theorem bitStep_ror {w : Nat} (hw : 1 < w) (x : BitVec w) (c : Bool) :
    ShiftOp.bitStep .ror x c = (x.rotateRight 1, x.getLsbD 0) := by
  simp only [ShiftOp.bitStep, Prod.mk.injEq, and_true]
  apply BitVec.eq_of_getLsbD_eq
  intro i hi
  rw [getLsbD_rotR _ _ _ hi, Nat.mod_eq_of_lt hw, BitVec.getLsbD_or, BitVec.getLsbD_shiftLeft, BitVec.getLsbD_ushiftRight]
  by_cases h : i + 1 = w
  · rw [if_neg (by omega), getLsbD_ofNat_bool _ _ (by omega)]
    simp [hi, show i - (w - 1) = 0 by omega, show i + 1 - w = 0 by omega, show ¬ i < w - 1 by omega]
    rw [BitVec.getLsbD_of_ge x (1+i) (by omega)]; simp
  · rw [if_pos (by omega)]
    simp [show i < w - 1 by omega, Nat.add_comm]

theorem bitStep_rcl {w : Nat} (hw : 1 < w) (x : BitVec w) (c : Bool) :
    BitVec.cons (ShiftOp.bitStep .rcl x c).2 (ShiftOp.bitStep .rcl x c).1 = (BitVec.cons c x).rotateLeft 1 := by
  apply BitVec.eq_of_getLsbD_eq
  intro i hi
  rw [getLsbD_rotL _ _ _ hi, Nat.mod_eq_of_lt (by omega), BitVec.getLsbD_cons, BitVec.getLsbD_cons]
  simp only [ShiftOp.bitStep]
  by_cases h : i = 0
  · subst h
    rw [if_neg (by omega), BitVec.getLsbD_or, BitVec.getLsbD_shiftLeft, getLsbD_ofNat_bool _ _ (by omega)]; simp
  · rw [if_neg (by omega : ¬ i < 1)]
    by_cases h2 : i = w
    · subst h2; rw [if_pos rfl, if_neg (by omega), BitVec.msb_eq_getLsbD_last]
    · rw [if_neg h2, if_neg (by omega), BitVec.getLsbD_or, BitVec.getLsbD_shiftLeft, getLsbD_ofNat_bool _ _ (by omega)]
      simp [h, show i < w by omega]

theorem bitStep_rcr {w : Nat} (hw : 1 < w) (x : BitVec w) (c : Bool) :
    BitVec.cons (ShiftOp.bitStep .rcr x c).2 (ShiftOp.bitStep .rcr x c).1 = (BitVec.cons c x).rotateRight 1 := by
  apply BitVec.eq_of_getLsbD_eq
  intro i hi
  rw [getLsbD_rotR _ _ _ hi, Nat.mod_eq_of_lt (by omega), BitVec.getLsbD_cons, BitVec.getLsbD_cons]
  simp only [ShiftOp.bitStep]
  by_cases h : i = w
  · subst h; rw [if_pos rfl, if_neg (by omega : ¬ i + 1 < i + 1), if_neg (by omega)]; congr 1; omega
  · rw [if_neg h, if_pos (by omega : i + 1 < w + 1), BitVec.getLsbD_or, BitVec.getLsbD_shiftLeft, BitVec.getLsbD_ushiftRight]
    by_cases h2 : i + 1 = w
    · simp only [h2, if_true]
      rw [getLsbD_ofNat_bool _ _ (by omega)]
      simp [show i - (w - 1) = 0 by omega, show ¬ i < w - 1 by omega, show i < w by omega]
      rw [BitVec.getLsbD_of_ge x (1+i) (by omega)]; simp
    · simp only [h2, if_false]
      simp [show i < w - 1 by omega, Nat.add_comm]

theorem bitStep_sar {w : Nat} (hw : 1 < w) (x : BitVec w) (c : Bool) :
    ShiftOp.bitStep .sar x c = (x.sshiftRight 1, x.getLsbD 0) := by
  simp only [ShiftOp.bitStep, Prod.mk.injEq, and_true]
  apply BitVec.eq_of_getLsbD_eq
  intro i hi
  rw [BitVec.getLsbD_sshiftRight, BitVec.getLsbD_or, BitVec.getLsbD_shiftLeft, BitVec.getLsbD_ushiftRight]
  by_cases h : i + 1 = w
  · rw [getLsbD_ofNat_bool _ _ (by omega)]
    simp [hi, show i - (w - 1) = 0 by omega, show ¬ i < w - 1 by omega, show ¬ 1 + i < w by omega]
    rw [BitVec.getLsbD_of_ge x (1+i) (by omega)]; simp [hi]
  · simp [show i < w - 1 by omega, hi, show 1 + i < w by omega]

theorem steps_rol {w : Nat} (hw : 1 < w) (n : Nat) : ∀ (x : BitVec w) (c : Bool),
    ShiftOp.steps .rol (n + 1) x c = (x.rotateLeft (n + 1), (x.rotateLeft (n + 1)).getLsbD 0) := by
  induction n with
  | zero =>
    intro x c
    rw [ShiftOp.steps, ShiftOp.steps, bitStep_rol hw, getLsbD_rotL _ _ _ (by omega), Nat.mod_eq_of_lt (by omega),
      BitVec.msb_eq_getLsbD_last]
    simp
  | succ n ih => intro x c; rw [ShiftOp.steps, bitStep_rol hw, ih, rotateLeft_succ (by omega)]

theorem steps_ror {w : Nat} (hw : 1 < w) (n : Nat) : ∀ (x : BitVec w) (c : Bool),
    ShiftOp.steps .ror (n + 1) x c = (x.rotateRight (n + 1), (x.rotateRight (n + 1)).msb) := by
  induction n with
  | zero =>
    intro x c
    rw [ShiftOp.steps, ShiftOp.steps, bitStep_ror hw, BitVec.msb_eq_getLsbD_last, getLsbD_rotR _ _ _ (by omega),
      Nat.mod_eq_of_lt (by omega), if_neg (by omega)]
    simp; congr 1; omega
  | succ n ih => intro x c; rw [ShiftOp.steps, bitStep_ror hw, ih, rotateRight_succ (by omega)]

theorem steps_rcl {w : Nat} (hw : 1 < w) (n : Nat) : ∀ (x : BitVec w) (c : Bool),
    BitVec.cons (ShiftOp.steps .rcl n x c).2 (ShiftOp.steps .rcl n x c).1 = (BitVec.cons c x).rotateLeft n := by
  induction n with
  | zero =>
    intro x c
    apply BitVec.eq_of_getLsbD_eq; intro i hi; rw [getLsbD_rotL _ _ _ hi]; simp [ShiftOp.steps]
  | succ n ih => intro x c; rw [ShiftOp.steps, ih, bitStep_rcl hw, rotateLeft_succ (by omega)]

theorem steps_rcr {w : Nat} (hw : 1 < w) (n : Nat) : ∀ (x : BitVec w) (c : Bool),
    BitVec.cons (ShiftOp.steps .rcr n x c).2 (ShiftOp.steps .rcr n x c).1 = (BitVec.cons c x).rotateRight n := by
  induction n with
  | zero =>
    intro x c
    apply BitVec.eq_of_getLsbD_eq; intro i hi; rw [getLsbD_rotR _ _ _ hi]; simp [ShiftOp.steps, hi]
  | succ n ih => intro x c; rw [ShiftOp.steps, ih, bitStep_rcr hw, rotateRight_succ (by omega)]

theorem steps_shl {w : Nat} (hw : 1 < w) (n : Nat) : ∀ (x : BitVec w) (c : Bool),
    ShiftOp.steps .shl (n + 1) x c = (BitVec.ofNat w (x.toNat * 2 ^ (n + 1)), (x.toNat * 2 ^ (n + 1)).testBit w) := by
  induction n with
  | zero =>
    intro x c
    simp only [ShiftOp.steps, ShiftOp.bitStep, Prod.mk.injEq]
    refine ⟨by apply BitVec.eq_of_toNat_eq; simp [Nat.shiftLeft_eq], ?_⟩
    rw [Nat.testBit_mul_two_pow, BitVec.msb_eq_getLsbD_last, BitVec.getLsbD]
    simp; omega
  | succ n ih =>
    intro x c
    have h1 : x.toNat * 2 ^ (n + 1 + 1) = x.toNat * 2 * 2 ^ (n + 1) := by rw [Nat.pow_succ' (n := n + 1), Nat.mul_assoc]
    have h2 : (x <<< 1).toNat = x.toNat * 2 % 2 ^ w := by simp [Nat.shiftLeft_eq]
    rw [ShiftOp.steps, ih, ShiftOp.bitStep, h1, h2, Prod.mk.injEq]
    constructor
    · apply BitVec.eq_of_toNat_eq; simp
    · rw [Nat.testBit_mul_two_pow, Nat.testBit_mul_two_pow, Nat.testBit_mod_two_pow]
      by_cases h : n + 1 ≤ w <;> simp [h]; omega

theorem steps_shr {w : Nat} (n : Nat) : ∀ (x : BitVec w) (c : Bool),
    ShiftOp.steps .shr (n + 1) x c = (BitVec.ofNat w (x.toNat / 2 ^ (n + 1)), (x.toNat * 2 / 2 ^ (n + 1)).testBit 0) := by
  induction n with
  | zero =>
    intro x c
    simp only [ShiftOp.steps, ShiftOp.bitStep, Prod.mk.injEq]
    exact ⟨by apply BitVec.eq_of_toNat_eq; simp [Nat.shiftRight_eq_div_pow]; rw [Nat.mod_eq_of_lt]; omega,
      by simp [BitVec.getLsbD]⟩
  | succ n ih =>
    intro x c
    have h2 : (x >>> 1).toNat = x.toNat / 2 := by simp [Nat.shiftRight_eq_div_pow]
    have h3 : x.toNat / 2 ^ (n + 1 + 1) = x.toNat / 2 / 2 ^ (n + 1) := by rw [Nat.div_div_eq_div_mul, Nat.pow_succ' (n := n + 1)]
    have h4 : x.toNat * 2 / 2 ^ (n + 1 + 1) = x.toNat / 2 * 2 / 2 ^ (n + 1) := by
      rw [pow_succ 2 (n + 1), Nat.mul_div_mul_right _ _ (by decide), pow_succ,
        Nat.mul_div_mul_right _ _ (by decide), Nat.div_div_eq_div_mul, Nat.mul_comm]
    rw [ShiftOp.steps, ih, ShiftOp.bitStep, h2, h3, h4]

theorem steps_sar {w : Nat} (hw : 1 < w) (n : Nat) : ∀ (x : BitVec w) (c : Bool),
    ShiftOp.steps .sar (n + 1) x c =
      (BitVec.ofInt w (x.toInt / 2 ^ (n + 1)), decide ((x.toInt * 2 / 2 ^ (n + 1)) % 2 = 1)) := by
  induction n with
  | zero =>
    intro x c
    simp only [ShiftOp.steps, bitStep_sar hw, Prod.mk.injEq]
    have h2 : (x.sshiftRight 1).toInt = x.toInt / 2 ^ 1 := by simp [BitVec.toInt_sshiftRight, Int.shiftRight_eq_div_pow]
    refine ⟨by rw [← h2, BitVec.ofInt_toInt], ?_⟩
    have h3 : (2 ^ w : Nat) = 2 * 2 ^ (w - 1) := by rw [← Nat.pow_succ']; congr 1; omega
    simp only [BitVec.getLsbD, Nat.testBit_zero, BitVec.toInt_eq_toNat_cond, h3]
    generalize 2 ^ (w - 1) = M
    rw [Bool.eq_iff_iff]
    simp only [decide_eq_true_eq]
    push_cast
    split <;> omega
  | succ n ih =>
    intro x c
    have h2 : (x.sshiftRight 1).toInt = x.toInt / 2 := by simp [BitVec.toInt_sshiftRight, Int.shiftRight_eq_div_pow]
    have h3 : x.toInt / 2 ^ (n + 1 + 1) = x.toInt / 2 / 2 ^ (n + 1) := by
      rw [Int.ediv_ediv_of_nonneg (by decide), pow_succ 2 (n + 1), Int.mul_comm]
    have h4 : x.toInt * 2 / 2 ^ (n + 1 + 1) = x.toInt / 2 * 2 / 2 ^ (n + 1) := by
      rw [pow_succ 2 (n + 1), Int.mul_ediv_mul_of_pos_left _ _ (by decide), pow_succ,
        Int.mul_ediv_mul_of_pos_left _ _ (by decide), Int.ediv_ediv_of_nonneg (by decide), Int.mul_comm]
    rw [ShiftOp.steps, bitStep_sar hw, ih, h2, h3, h4]

/-- What any number of steps of a shift or rotate does, in closed form. -/
theorem ShiftOp.steps_law {w : Nat} (hw : 1 < w) (op : ShiftOp) {n : Nat} (hn : n ≠ 0) (x : BitVec w) (c : Bool) :
    op.steps n x c = (op.value n x c, op.carry n x c) := by
  obtain ⟨n, rfl⟩ := Nat.exists_eq_succ_of_ne_zero hn
  cases op with
  | rol => exact steps_rol hw n x c
  | ror => exact steps_ror hw n x c
  | rcl =>
    rw [ShiftOp.value, ShiftOp.carry, ← steps_rcl hw, BitVec.setWidth_cons, BitVec.msb_cons]
  | rcr =>
    rw [ShiftOp.value, ShiftOp.carry, ← steps_rcr hw, BitVec.setWidth_cons, BitVec.msb_cons]
  | shl => exact steps_shl hw n x c
  | shr => exact steps_shr n x c
  | sar => exact steps_sar hw n x c

/-- OF after a single step. -/
theorem ShiftOp.of1_law {w : Nat} (hw : 1 < w) (op : ShiftOp) (x : BitVec w) (c : Bool) :
    op.of1 x (op.steps 1 x c).1 (op.steps 1 x c).2 = op.overflow x (op.value 1 x c) := by
  have h := op.steps_law hw (n := 1) (by decide) x c
  rw [h]
  have h2 : (op.bitStep x c) = (op.value 1 x c, op.carry 1 x c) := by rw [← h]; rfl
  cases op <;> simp only [ShiftOp.of1, ShiftOp.overflow]
  · rw [← (Prod.mk.inj h2).2]; exact Bool.xor_comm _ _
  · rw [Bool.xor_comm]; congr 1
    rw [← (Prod.mk.inj h2).1, BitVec.msb_eq_getLsbD_last, BitVec.getLsbD_or, BitVec.getLsbD_shiftLeft,
      BitVec.getLsbD_ushiftRight]
    simp [show 1 + (w - 2) = w - 1 by omega, show w - 2 < w by omega, show w - 2 < w - 1 by omega]
  · rw [← (Prod.mk.inj h2).2]; exact Bool.xor_comm _ _
  · rw [Bool.xor_comm]; congr 1
    rw [← (Prod.mk.inj h2).1, BitVec.msb_eq_getLsbD_last, BitVec.getLsbD_or, BitVec.getLsbD_shiftLeft,
      BitVec.getLsbD_ushiftRight]
    simp [show 1 + (w - 2) = w - 1 by omega, show w - 2 < w by omega, show w - 2 < w - 1 by omega]
  · rw [← (Prod.mk.inj h2).2]; exact Bool.xor_comm _ _

theorem State.shiftBy_value {w : Nat} (hw : 1 < w) (s : State) (op : ShiftOp) {n : Nat} (hn : n ≠ 0) (x : BitVec w) :
    (s.shiftBy op n x).1 = op.value n x (s.flag .cf) := by
  simp only [State.shiftBy, op.steps_law hw hn]

@[simp] theorem State.shiftBy_mem {w : Nat} (s : State) (op : ShiftOp) (n : Nat) (x : BitVec w) :
    (s.shiftBy op n x).2.mem = s.mem := by
  simp only [State.shiftBy]; split <;> split <;> simp

/-- The flags of a shift or rotate. -/
theorem State.shiftBy_sets {w : Nat} (hw : 1 < w) (s : State) (op : ShiftOp) {n : Nat} (hn : n ≠ 0) (x : BitVec w) :
    (s.shiftBy op n x).2.flag .cf = op.carry n x (s.flag .cf) ∧
    (n = 1 → (s.shiftBy op n x).2.flag .ofl = op.overflow x (op.value n x (s.flag .cf))) ∧
    (op.isShift = true → Describes (s.shiftBy op n x).2 (op.value n x (s.flag .cf))) := by
  refine ⟨?_, ?_, ?_⟩
  · simp only [State.shiftBy, op.steps_law hw hn]
    split <;> split <;> simp [State.flag_drawFlag, State.flag_setSzp, State.flag_setFlag]
  · rintro rfl
    rw [← op.of1_law hw]
    simp only [State.shiftBy, if_true]
    split <;> simp [State.flag_drawFlag, State.flag_setSzp]
  · intro h
    simp only [State.shiftBy, op.steps_law hw hn, h, if_true]
    generalize (if n = 1 then _ else _ : State) = u
    have := State.setSzp_describes u (op.value n x (s.flag .cf))
    simpa [Describes, State.flag_drawFlag] using this

theorem State.shiftBy_changes {w : Nat} (s : State) (op : ShiftOp) (n : Nat) (x : BitVec w) :
    Changes { flags := if op.isShift then sixFlags else [.cf, .ofl]
              draws := (if n = 1 then 0 else 1) + (if op.isShift then 1 else 0) } s (s.shiftBy op n x).2 := by
  simp only [State.shiftBy]
  generalize op.of1 x _ _ = o
  generalize (op.steps n x (s.flag .cf)).2 = c
  generalize (op.steps n x (s.flag .cf)).1 = y
  have h1 := State.setFlag_changes s .cf c
  have ho := h1.trans (State.setFlag_changes _ .ofl o)
  have hd := h1.trans (State.drawFlag_changes _ .ofl)
  have hs := fun (u : State) => (State.setSzp_changes u y).trans (State.drawFlag_changes _ .af)
  by_cases h : n = 1 <;> cases hop : op.isShift <;> simp only [h, if_true, if_false, Bool.false_eq_true]
  · exact ho.mono (by constructor <;> simp [Effect.andThen])
  · exact (ho.trans (hs _)).mono (by constructor <;> simp [Effect.andThen, sixFlags])
  · exact hd.mono (by constructor <;> simp [Effect.andThen])
  · exact (hd.trans (hs _)).mono (by constructor <;> simp [Effect.andThen, sixFlags])

/-- OF, when it is a draw, and AF of a shift hold the next draws, in that order. -/
theorem State.shiftBy_drawn {w : Nat} (s : State) (op : ShiftOp) (n : Nat) (x : BitVec w) :
    (n ≠ 1 → Drawn (s.shiftBy op n x).2 s.draws [.ofl]) ∧
    (op.isShift = true → Drawn (s.shiftBy op n x).2 (s.draws + if n = 1 then 0 else 1) [.af]) := by
  have one : ∀ (t : State) (k : Nat) (f : Flag), t.flag f = (Config.freeWord k).getLsbD 0 → Drawn t k [f] := by
    rintro t k f h (_ | j) g hg
    · obtain rfl : f = g := by simpa using hg
      simpa using h
    · simp at hg
  constructor <;> intro h <;> refine one _ _ _ ?_ <;> simp only [State.shiftBy, h, if_true, if_false]
  · split <;> simp [State.flag_drawFlag, State.flag_setSzp]
  · split <;> simp [State.flag_drawFlag]

theorem State.shift8_drawn (s : State) (op : ShiftOp) (e : Rm8) {n : Nat} (hn : n ≠ 0) :
    (n ≠ 1 → Drawn (s.shift8 op e n) s.draws [.ofl]) ∧
    (op.isShift = true → Drawn (s.shift8 op e n) (s.draws + if n = 1 then 0 else 1) [.af]) := by
  have h := State.shiftBy_drawn (s.readRm8 e).2 op n (s.readRm8 e).1
  rw [show (s.readRm8 e).2.draws = s.draws by simp [State.readRm8]] at h
  refine ⟨fun k => (h.1 k).congr ?_, fun k => (h.2 k).congr ?_⟩ <;> simp [State.shift8, hn]

theorem State.shift16_drawn (s : State) (op : ShiftOp) (e : Rm16) {n : Nat} (hn : n ≠ 0) :
    (n ≠ 1 → Drawn (s.shift16 op e n) s.draws [.ofl]) ∧
    (op.isShift = true → Drawn (s.shift16 op e n) (s.draws + if n = 1 then 0 else 1) [.af]) := by
  have h := State.shiftBy_drawn (s.readRm16 e).2 op n (s.readRm16 e).1
  rw [show (s.readRm16 e).2.draws = s.draws by simp [State.readRm16]] at h
  refine ⟨fun k => (h.1 k).congr ?_, fun k => (h.2 k).congr ?_⟩ <;> simp [State.shift16, hn]

/-- A shift or rotate of a byte place, for a count that is not 0. -/
theorem State.shift8_law (s : State) (op : ShiftOp) (e : Rm8) {n : Nat} (hn : n ≠ 0) (hw : Memory.wf s.mem = true) :
    (s.shift8 op e n).at8 (s.loc e) = op.value n (s.at8 (s.loc e)) (s.flag .cf) ∧
    (s.shift8 op e n).flag .cf = op.carry n (s.at8 (s.loc e)) (s.flag .cf) ∧
    (n = 1 → (s.shift8 op e n).flag .ofl =
      op.overflow (s.at8 (s.loc e)) (op.value n (s.at8 (s.loc e)) (s.flag .cf))) ∧
    (op.isShift = true → Describes (s.shift8 op e n) (op.value n (s.at8 (s.loc e)) (s.flag .cf))) ∧
    Changes { halves := (s.loc e).halves
              flags := if op.isShift then sixFlags else [.cf, .ofl]
              stores := (s.loc e).stores8
              last := (s.loc e).last8
              draws := (if n = 1 then 0 else 1) + (if op.isShift then 1 else 0) } s (s.shift8 op e n) := by
  have hv := State.shiftBy_value (w := 8) (by decide) (s.readRm8 e).2 op hn (s.at8 (s.loc e))
  obtain ⟨h1, h2, h3⟩ := State.shiftBy_sets (w := 8) (by decide) (s.readRm8 e).2 op hn (s.at8 (s.loc e))
  have hc := (State.readRm8_changes s e).trans (State.shiftBy_changes (s.readRm8 e).2 op n (s.at8 (s.loc e)))
  rw [show (s.readRm8 e).2.flag .cf = s.flag .cf from State.flag_readLoc8 _ _ _] at hv h1 h2 h3
  have he : s.shift8 op e n = ((s.readRm8 e).2.shiftBy op n (s.at8 (s.loc e))).2.writeLoc8 (s.loc e)
      (op.value n (s.at8 (s.loc e)) (s.flag .cf)) := by simp [State.shift8, hn, hv]
  have hm : Memory.wf ((s.readRm8 e).2.shiftBy op n (s.at8 (s.loc e))).2.mem = true := by simpa [State.readRm8] using hw
  rw [he, State.at8_writeLoc8 _ _ _ hm]
  refine ⟨rfl, by rw [State.flag_writeLoc8]; exact h1, fun h => by rw [State.flag_writeLoc8]; exact h2 h,
    fun h => (h3 h).congr (by simp), (hc.trans (State.writeLoc8_changes _ _ _ hm)).mono ?_⟩
  constructor <;> simp [Effect.andThen]

/-- A count of 0 reads the place and nothing else. -/
theorem State.shift8_zero (s : State) (op : ShiftOp) (e : Rm8) :
    Changes { last := (s.loc e).last8 } s (s.shift8 op e 0) := by
  simpa [State.shift8] using State.readRm8_changes s e

/-- A shift or rotate of a word place, for a count that is not 0. -/
theorem State.shift16_law (s : State) (op : ShiftOp) (e : Rm16) {n : Nat} (hn : n ≠ 0) (hw : Memory.wf s.mem = true) :
    (s.shift16 op e n).at16 (s.loc e) = op.value n (s.at16 (s.loc e)) (s.flag .cf) ∧
    (s.shift16 op e n).flag .cf = op.carry n (s.at16 (s.loc e)) (s.flag .cf) ∧
    (n = 1 → (s.shift16 op e n).flag .ofl =
      op.overflow (s.at16 (s.loc e)) (op.value n (s.at16 (s.loc e)) (s.flag .cf))) ∧
    (op.isShift = true → Describes (s.shift16 op e n) (op.value n (s.at16 (s.loc e)) (s.flag .cf))) ∧
    Changes { regs := (s.loc e).regs
              flags := if op.isShift then sixFlags else [.cf, .ofl]
              stores := (s.loc e).stores16
              last := (s.loc e).last16
              draws := (if n = 1 then 0 else 1) + (if op.isShift then 1 else 0) } s (s.shift16 op e n) := by
  have hv := State.shiftBy_value (w := 16) (by decide) (s.readRm16 e).2 op hn (s.at16 (s.loc e))
  obtain ⟨h1, h2, h3⟩ := State.shiftBy_sets (w := 16) (by decide) (s.readRm16 e).2 op hn (s.at16 (s.loc e))
  have hc := (State.readRm16_changes s e).trans (State.shiftBy_changes (s.readRm16 e).2 op n (s.at16 (s.loc e)))
  rw [show (s.readRm16 e).2.flag .cf = s.flag .cf from State.flag_readLoc16 _ _ _] at hv h1 h2 h3
  have he : s.shift16 op e n = ((s.readRm16 e).2.shiftBy op n (s.at16 (s.loc e))).2.writeLoc16 (s.loc e)
      (op.value n (s.at16 (s.loc e)) (s.flag .cf)) := by simp [State.shift16, hn, hv]
  have hm : Memory.wf ((s.readRm16 e).2.shiftBy op n (s.at16 (s.loc e))).2.mem = true := by simpa [State.readRm16] using hw
  rw [he, State.at16_writeLoc16 _ _ _ hm]
  refine ⟨rfl, by rw [State.flag_writeLoc16]; exact h1, fun h => by rw [State.flag_writeLoc16]; exact h2 h,
    fun h => (h3 h).congr (by simp), (hc.trans (State.writeLoc16_changes _ _ _ hm)).mono ?_⟩
  constructor <;> simp [Effect.andThen]

/-- A count of 0 reads the place and nothing else. -/
theorem State.shift16_zero (s : State) (op : ShiftOp) (e : Rm16) :
    Changes { last := (s.loc e).last16 } s (s.shift16 op e 0) := by
  simpa [State.shift16] using State.readRm16_changes s e

end Sys2Proof.Machine
end

