-- ==== Sys2Proof/Tests/Slice0.lean ====
section
/-! SUPPORT. The tests of the model's own work: ill-formed terms refused, the decoding of a word of every constructor, vectors
of 95_test_vectors.md, and a state that meets the hypotheses of each statement. -/

set_option Elab.async false
set_option maxRecDepth 10000

namespace Sys2Proof.Tests

open Sys2Proof.Machine

/-! ## Well-formedness: a term the check refuses for each of its clauses -/

theorem test_wf_bp_without_displacement : Instr.wf (.movGwEw .ax (.mem (.base .bp .none))) = false := by decide

theorem test_wf_lea_bp_without_displacement : Instr.wf (.leaGwM .ax (.base .bp .none)) = false := by decide

theorem test_wf_bp_with_displacement : Instr.wf (.movGwEw .ax (.mem (.base .bp (.d8 0)))) = true := by decide

theorem test_wf_xchg_ax_ax : Instr.wf (.xchgAxR16 .ax) = false := by decide

theorem test_wf_xchg_ax_bx : Instr.wf (.xchgAxR16 .bx) = true := by decide

/-! ## Decoding: a word of every constructor, written out from the opcode table's format and 30_encoding.md R108 to R126 -/

/-- The bytes, with one more after them, decode to the instruction and that one. -/
def reads (p : List Byte × Instr) : Bool := decode (p.1 ++ [0x5A]) == .ok p.2 [0x5A]

theorem test_decode_1 : ([
    ([0x00, 0x51, 0x85], .addEbGb (.mem (.base .bxDi (.d8 0x85))) .dl),
    ([0x01, 0x3C], .addEwGw (.mem (.base .si .none)) .di),
    ([0x02, 0xA7, 0xCD, 0xAB], .addGbEb .ah (.mem (.base .bx (.d16 0xABCD)))),
    ([0x03, 0xCA], .addGwEw .cx (.reg .dx)),
    ([0x04, 0x9E], .addAlIb 0x9E),
    ([0x05, 0x34, 0x12], .addAxIw 0x1234),
    ([0x08, 0x36, 0x34, 0x12], .orEbGb (.mem (.direct 0x1234)) .dh),
    ([0x09, 0x58, 0x85], .orEwGw (.mem (.base .bxSi (.d8 0x85))) .bx),
    ([0x0A, 0x03], .orGbEb .al (.mem (.base .bpDi .none))),
    ([0x0B, 0xAE, 0xCD, 0xAB], .orGwEw .bp (.mem (.base .bp (.d16 0xABCD)))),
    ([0x0C, 0x9E], .orAlIb 0x9E),
    ([0x0D, 0x34, 0x12], .orAxIw 0x1234),
    ([0x10, 0xD1], .adcEbGb (.reg .cl) .dl),
    ([0x11, 0x3E, 0x34, 0x12], .adcEwGw (.mem (.direct 0x1234)) .di),
    ([0x12, 0x67, 0x85], .adcGbEb .ah (.mem (.base .bx (.d8 0x85)))),
    ([0x13, 0x0A], .adcGwEw .cx (.mem (.base .bpSi .none))),
    ([0x14, 0x9E], .adcAlIb 0x9E),
    ([0x15, 0x34, 0x12], .adcAxIw 0x1234),
    ([0x18, 0xB5, 0xCD, 0xAB], .sbbEbGb (.mem (.base .di (.d16 0xABCD))) .dh),
    ([0x19, 0xD8], .sbbEwGw (.reg .ax) .bx),
    ([0x1A, 0x06, 0x34, 0x12], .sbbGbEb .al (.mem (.direct 0x1234))),
    ([0x1B, 0x6E, 0x85], .sbbGwEw .bp (.mem (.base .bp (.d8 0x85)))),
    ([0x1C, 0x9E], .sbbAlIb 0x9E),
    ([0x1D, 0x34, 0x12], .sbbAxIw 0x1234),
    ([0x20, 0x11], .andEbGb (.mem (.base .bxDi .none)) .dl)] : List (List Byte × Instr)).all reads = true := by decide +kernel

theorem test_decode_2 : ([
    ([0x21, 0xBC, 0xCD, 0xAB], .andEwGw (.mem (.base .si (.d16 0xABCD))) .di),
    ([0x22, 0xE7], .andGbEb .ah (.reg .bh)),
    ([0x23, 0x0E, 0x34, 0x12], .andGwEw .cx (.mem (.direct 0x1234))),
    ([0x24, 0x9E], .andAlIb 0x9E),
    ([0x25, 0x34, 0x12], .andAxIw 0x1234),
    ([0x28, 0x75, 0x85], .subEbGb (.mem (.base .di (.d8 0x85))) .dh),
    ([0x29, 0x18], .subEwGw (.mem (.base .bxSi .none)) .bx),
    ([0x2A, 0x83, 0xCD, 0xAB], .subGbEb .al (.mem (.base .bpDi (.d16 0xABCD)))),
    ([0x2B, 0xEE], .subGwEw .bp (.reg .si)),
    ([0x2C, 0x9E], .subAlIb 0x9E),
    ([0x2D, 0x34, 0x12], .subAxIw 0x1234),
    ([0x30, 0x16, 0x34, 0x12], .xorEbGb (.mem (.direct 0x1234)) .dl),
    ([0x31, 0x7C, 0x85], .xorEwGw (.mem (.base .si (.d8 0x85))) .di),
    ([0x32, 0x27], .xorGbEb .ah (.mem (.base .bx .none))),
    ([0x33, 0x8A, 0xCD, 0xAB], .xorGwEw .cx (.mem (.base .bpSi (.d16 0xABCD)))),
    ([0x34, 0x9E], .xorAlIb 0x9E),
    ([0x35, 0x34, 0x12], .xorAxIw 0x1234),
    ([0x38, 0xF5], .cmpEbGb (.reg .ch) .dh),
    ([0x39, 0x1E, 0x34, 0x12], .cmpEwGw (.mem (.direct 0x1234)) .bx),
    ([0x3A, 0x43, 0x85], .cmpGbEb .al (.mem (.base .bpDi (.d8 0x85)))),
    ([0x3B, 0x2F], .cmpGwEw .bp (.mem (.base .bx .none))),
    ([0x3C, 0x9E], .cmpAlIb 0x9E),
    ([0x3D, 0x34, 0x12], .cmpAxIw 0x1234),
    ([0x06], .pushEs),
    ([0x07], .popEs)] : List (List Byte × Instr)).all reads = true := by decide +kernel

theorem test_decode_3 : ([
    ([0x26], .segEs),
    ([0x0E], .pushCs),
    ([0x2E], .segCs),
    ([0x16], .pushSs),
    ([0x17], .popSs),
    ([0x36], .segSs),
    ([0x1E], .pushDs),
    ([0x1F], .popDs),
    ([0x3E], .segDs),
    ([0x27], .daa),
    ([0x2F], .das),
    ([0x37], .aaa),
    ([0x3F], .aas),
    ([0x45], .incR16 .bp),
    ([0x4D], .decR16 .bp),
    ([0x55], .pushR16 .bp),
    ([0x5D], .popR16 .bp),
    ([0x70, 0x9E], .joJb 0x9E),
    ([0x71, 0x9E], .jnoJb 0x9E),
    ([0x72, 0x9E], .jbJb 0x9E),
    ([0x73, 0x9E], .jaeJb 0x9E),
    ([0x74, 0x9E], .jeJb 0x9E),
    ([0x75, 0x9E], .jneJb 0x9E),
    ([0x76, 0x9E], .jbeJb 0x9E),
    ([0x77, 0x9E], .jaJb 0x9E)] : List (List Byte × Instr)).all reads = true := by decide +kernel

theorem test_decode_4 : ([
    ([0x78, 0x9E], .jsJb 0x9E),
    ([0x79, 0x9E], .jnsJb 0x9E),
    ([0x7A, 0x9E], .jpJb 0x9E),
    ([0x7B, 0x9E], .jnpJb 0x9E),
    ([0x7C, 0x9E], .jlJb 0x9E),
    ([0x7D, 0x9E], .jgeJb 0x9E),
    ([0x7E, 0x9E], .jleJb 0x9E),
    ([0x7F, 0x9E], .jgJb 0x9E),
    ([0x80, 0x81, 0xCD, 0xAB, 0xFE], .addEbIb (.mem (.base .bxDi (.d16 0xABCD))) 0xFE),
    ([0x81, 0xC4, 0x34, 0x12], .addEwIw (.reg .sp) 0x1234),
    ([0x82, 0x06, 0x34, 0x12, 0xFE], .addEbIb82 (.mem (.direct 0x1234)) 0xFE),
    ([0x83, 0x42, 0x85, 0xFE], .addEwIbSx (.mem (.base .bpSi (.d8 0x85))) 0xFE),
    ([0x80, 0x0D, 0xFE], .orEbIb (.mem (.base .di .none)) 0xFE),
    ([0x81, 0x88, 0xCD, 0xAB, 0x34, 0x12], .orEwIw (.mem (.base .bxSi (.d16 0xABCD))) 0x1234),
    ([0x80, 0xD3, 0xFE], .adcEbIb (.reg .bl) 0xFE),
    ([0x81, 0x16, 0x34, 0x12, 0x34, 0x12], .adcEwIw (.mem (.direct 0x1234)) 0x1234),
    ([0x82, 0x51, 0x85, 0xFE], .adcEbIb82 (.mem (.base .bxDi (.d8 0x85))) 0xFE),
    ([0x83, 0x14, 0xFE], .adcEwIbSx (.mem (.base .si .none)) 0xFE),
    ([0x80, 0x9F, 0xCD, 0xAB, 0xFE], .sbbEbIb (.mem (.base .bx (.d16 0xABCD))) 0xFE),
    ([0x81, 0xDA, 0x34, 0x12], .sbbEwIw (.reg .dx) 0x1234),
    ([0x82, 0x1E, 0x34, 0x12, 0xFE], .sbbEbIb82 (.mem (.direct 0x1234)) 0xFE),
    ([0x83, 0x58, 0x85, 0xFE], .sbbEwIbSx (.mem (.base .bxSi (.d8 0x85))) 0xFE),
    ([0x80, 0x23, 0xFE], .andEbIb (.mem (.base .bpDi .none)) 0xFE),
    ([0x81, 0xA6, 0xCD, 0xAB, 0x34, 0x12], .andEwIw (.mem (.base .bp (.d16 0xABCD))) 0x1234),
    ([0x80, 0xE9, 0xFE], .subEbIb (.reg .cl) 0xFE)] : List (List Byte × Instr)).all reads = true := by decide +kernel

theorem test_decode_5 : ([
    ([0x81, 0x2E, 0x34, 0x12, 0x34, 0x12], .subEwIw (.mem (.direct 0x1234)) 0x1234),
    ([0x82, 0x6F, 0x85, 0xFE], .subEbIb82 (.mem (.base .bx (.d8 0x85))) 0xFE),
    ([0x83, 0x2A, 0xFE], .subEwIbSx (.mem (.base .bpSi .none)) 0xFE),
    ([0x80, 0xB5, 0xCD, 0xAB, 0xFE], .xorEbIb (.mem (.base .di (.d16 0xABCD))) 0xFE),
    ([0x81, 0xF0, 0x34, 0x12], .xorEwIw (.reg .ax) 0x1234),
    ([0x80, 0x3E, 0x34, 0x12, 0xFE], .cmpEbIb (.mem (.direct 0x1234)) 0xFE),
    ([0x81, 0x7E, 0x85, 0x34, 0x12], .cmpEwIw (.mem (.base .bp (.d8 0x85))) 0x1234),
    ([0x82, 0x39, 0xFE], .cmpEbIb82 (.mem (.base .bxDi .none)) 0xFE),
    ([0x83, 0xBC, 0xCD, 0xAB, 0xFE], .cmpEwIbSx (.mem (.base .si (.d16 0xABCD))) 0xFE),
    ([0x84, 0xE7], .testEbGb (.reg .bh) .ah),
    ([0x85, 0x0E, 0x34, 0x12], .testEwGw (.mem (.direct 0x1234)) .cx),
    ([0x86, 0x75, 0x85], .xchgEbGb (.mem (.base .di (.d8 0x85))) .dh),
    ([0x87, 0x18], .xchgEwGw (.mem (.base .bxSi .none)) .bx),
    ([0x88, 0x83, 0xCD, 0xAB], .movEbGb (.mem (.base .bpDi (.d16 0xABCD))) .al),
    ([0x89, 0xEE], .movEwGw (.reg .si) .bp),
    ([0x8A, 0x16, 0x34, 0x12], .movGbEb .dl (.mem (.direct 0x1234))),
    ([0x8B, 0x7C, 0x85], .movGwEw .di (.mem (.base .si (.d8 0x85)))),
    ([0x8C, 0x17], .movEwSw (.mem (.base .bx .none)) .ss),
    ([0x8D, 0x0E, 0x34, 0x12], .leaGwM .cx (.direct 0x1234)),
    ([0x8E, 0xC5], .movEsEw (.reg .bp)),
    ([0x8E, 0x16, 0x34, 0x12], .movSsEw (.mem (.direct 0x1234))),
    ([0x8E, 0x5B, 0x85], .movDsEw (.mem (.base .bpDi (.d8 0x85)))),
    ([0x8F, 0x07], .popEw (.mem (.base .bx .none))),
    ([0x90], .nop),
    ([0x95], .xchgAxR16 .bp)] : List (List Byte × Instr)).all reads = true := by decide +kernel

theorem test_decode_6 : ([
    ([0x98], .cbw),
    ([0x99], .cwd),
    ([0x9A, 0x5B, 0xE0, 0x00, 0xF0], .callAp 0xE05B 0xF000),
    ([0x9B], .wait),
    ([0x9C], .pushf),
    ([0x9D], .popf),
    ([0x9E], .sahf),
    ([0x9F], .lahf),
    ([0xA0, 0x34, 0x12], .movAlOb 0x1234),
    ([0xA1, 0x34, 0x12], .movAxOw 0x1234),
    ([0xA2, 0x34, 0x12], .movObAl 0x1234),
    ([0xA3, 0x34, 0x12], .movOwAx 0x1234),
    ([0xA4], .movsb),
    ([0xA5], .movsw),
    ([0xA6], .cmpsb),
    ([0xA7], .cmpsw),
    ([0xA8, 0x9E], .testAlIb 0x9E),
    ([0xA9, 0x34, 0x12], .testAxIw 0x1234),
    ([0xAA], .stosb),
    ([0xAB], .stosw),
    ([0xAC], .lodsb),
    ([0xAD], .lodsw),
    ([0xAE], .scasb),
    ([0xAF], .scasw),
    ([0xB6, 0x5A], .movR8Ib .dh 0x5A)] : List (List Byte × Instr)).all reads = true := by decide +kernel

theorem test_decode_7 : ([
    ([0xBD, 0x34, 0x12], .movR16Iw .bp 0x1234),
    ([0xC2, 0x34, 0x12], .retIw 0x1234),
    ([0xC3], .ret),
    ([0xC4, 0x51, 0x85], .lesGwMp .dx (.base .bxDi (.d8 0x85))),
    ([0xC5, 0x3C], .ldsGwMp .di (.base .si .none)),
    ([0xC6, 0x06, 0x34, 0x12, 0xFE], .movEbIb (.mem (.direct 0x1234)) 0xFE),
    ([0xC7, 0x42, 0x85, 0x34, 0x12], .movEwIw (.mem (.base .bpSi (.d8 0x85))) 0x1234),
    ([0xCA, 0x34, 0x12], .retfIw 0x1234),
    ([0xCB], .retf),
    ([0xCC], .int3),
    ([0xCD, 0x9E], .intIb 0x9E),
    ([0xCE], .into),
    ([0xCF], .iret),
    ([0xD0, 0x05], .rolEb1 (.mem (.base .di .none))),
    ([0xD0, 0x88, 0xCD, 0xAB], .rorEb1 (.mem (.base .bxSi (.d16 0xABCD)))),
    ([0xD0, 0xD3], .rclEb1 (.reg .bl)),
    ([0xD0, 0x1E, 0x34, 0x12], .rcrEb1 (.mem (.direct 0x1234))),
    ([0xD0, 0x61, 0x85], .shlEb1 (.mem (.base .bxDi (.d8 0x85)))),
    ([0xD0, 0x2C], .shrEb1 (.mem (.base .si .none))),
    ([0xD0, 0xBF, 0xCD, 0xAB], .sarEb1 (.mem (.base .bx (.d16 0xABCD)))),
    ([0xD1, 0xC2], .rolEw1 (.reg .dx)),
    ([0xD1, 0x0E, 0x34, 0x12], .rorEw1 (.mem (.direct 0x1234))),
    ([0xD1, 0x50, 0x85], .rclEw1 (.mem (.base .bxSi (.d8 0x85)))),
    ([0xD1, 0x1B], .rcrEw1 (.mem (.base .bpDi .none))),
    ([0xD1, 0xA6, 0xCD, 0xAB], .shlEw1 (.mem (.base .bp (.d16 0xABCD))))] : List (List Byte × Instr)).all reads = true := by decide +kernel

theorem test_decode_8 : ([
    ([0xD1, 0xE9], .shrEw1 (.reg .cx)),
    ([0xD1, 0x3E, 0x34, 0x12], .sarEw1 (.mem (.direct 0x1234))),
    ([0xD2, 0x47, 0x85], .rolEbCl (.mem (.base .bx (.d8 0x85)))),
    ([0xD2, 0x0A], .rorEbCl (.mem (.base .bpSi .none))),
    ([0xD2, 0x95, 0xCD, 0xAB], .rclEbCl (.mem (.base .di (.d16 0xABCD)))),
    ([0xD2, 0xD8], .rcrEbCl (.reg .al)),
    ([0xD2, 0x26, 0x34, 0x12], .shlEbCl (.mem (.direct 0x1234))),
    ([0xD2, 0x6E, 0x85], .shrEbCl (.mem (.base .bp (.d8 0x85)))),
    ([0xD2, 0x39], .sarEbCl (.mem (.base .bxDi .none))),
    ([0xD3, 0x84, 0xCD, 0xAB], .rolEwCl (.mem (.base .si (.d16 0xABCD)))),
    ([0xD3, 0xCF], .rorEwCl (.reg .di)),
    ([0xD3, 0x16, 0x34, 0x12], .rclEwCl (.mem (.direct 0x1234))),
    ([0xD3, 0x5D, 0x85], .rcrEwCl (.mem (.base .di (.d8 0x85)))),
    ([0xD3, 0x20], .shlEwCl (.mem (.base .bxSi .none))),
    ([0xD3, 0xAB, 0xCD, 0xAB], .shrEwCl (.mem (.base .bpDi (.d16 0xABCD)))),
    ([0xD3, 0xFE], .sarEwCl (.reg .si)),
    ([0xD4, 0x9E], .aamIb 0x9E),
    ([0xD5, 0x9E], .aadIb 0x9E),
    ([0xD7], .xlat),
    ([0xDB, 0x2E, 0x34, 0x12], .esc 3 5 (.mem (.direct 0x1234))),
    ([0xE0, 0x9E], .loopneJb 0x9E),
    ([0xE1, 0x9E], .loopeJb 0x9E),
    ([0xE2, 0x9E], .loopJb 0x9E),
    ([0xE3, 0x9E], .jcxzJb 0x9E),
    ([0xE4, 0x9E], .inAlIb 0x9E)] : List (List Byte × Instr)).all reads = true := by decide +kernel

theorem test_decode_9 : ([
    ([0xE5, 0x9E], .inAxIb 0x9E),
    ([0xE6, 0x9E], .outIbAl 0x9E),
    ([0xE7, 0x9E], .outIbAx 0x9E),
    ([0xE8, 0x34, 0x12], .callJw 0x1234),
    ([0xE9, 0x34, 0x12], .jmpJw 0x1234),
    ([0xEA, 0x5B, 0xE0, 0x00, 0xF0], .jmpAp 0xE05B 0xF000),
    ([0xEB, 0x9E], .jmpJb 0x9E),
    ([0xEC], .inAlDx),
    ([0xED], .inAxDx),
    ([0xEE], .outDxAl),
    ([0xEF], .outDxAx),
    ([0xF0], .lock),
    ([0xF2], .repne),
    ([0xF3], .repe),
    ([0xF4], .hlt),
    ([0xF5], .cmc),
    ([0xF6, 0x44, 0x85, 0xFE], .testEbIb (.mem (.base .si (.d8 0x85))) 0xFE),
    ([0xF6, 0x17], .notEb (.mem (.base .bx .none))),
    ([0xF6, 0x9A, 0xCD, 0xAB], .negEb (.mem (.base .bpSi (.d16 0xABCD)))),
    ([0xF6, 0xE5], .mulEb (.reg .ch)),
    ([0xF6, 0x2E, 0x34, 0x12], .imulEb (.mem (.direct 0x1234))),
    ([0xF6, 0x73, 0x85], .divEb (.mem (.base .bpDi (.d8 0x85)))),
    ([0xF6, 0x3F], .idivEb (.mem (.base .bx .none))),
    ([0xF7, 0x81, 0xCD, 0xAB, 0x34, 0x12], .testEwIw (.mem (.base .bxDi (.d16 0xABCD))) 0x1234),
    ([0xF7, 0xD4], .notEw (.reg .sp))] : List (List Byte × Instr)).all reads = true := by decide +kernel

theorem test_decode_10 : ([
    ([0xF7, 0x1E, 0x34, 0x12], .negEw (.mem (.direct 0x1234))),
    ([0xF7, 0x62, 0x85], .mulEw (.mem (.base .bpSi (.d8 0x85)))),
    ([0xF7, 0x2D], .imulEw (.mem (.base .di .none))),
    ([0xF7, 0xB0, 0xCD, 0xAB], .divEw (.mem (.base .bxSi (.d16 0xABCD)))),
    ([0xF7, 0xFB], .idivEw (.reg .bx)),
    ([0xFE, 0x06, 0x34, 0x12], .incEb (.mem (.direct 0x1234))),
    ([0xFE, 0x49, 0x85], .decEb (.mem (.base .bxDi (.d8 0x85)))),
    ([0xFF, 0x04], .incEw (.mem (.base .si .none))),
    ([0xFF, 0x8F, 0xCD, 0xAB], .decEw (.mem (.base .bx (.d16 0xABCD)))),
    ([0xFF, 0xD2], .callEw (.reg .dx)),
    ([0xFF, 0x5D, 0x85], .callMp (.base .di (.d8 0x85))),
    ([0xFF, 0x60, 0x85], .jmpEw (.mem (.base .bxSi (.d8 0x85)))),
    ([0xFF, 0xAB, 0xCD, 0xAB], .jmpMp (.base .bpDi (.d16 0xABCD))),
    ([0xFF, 0xB6, 0xCD, 0xAB], .pushEw (.mem (.base .bp (.d16 0xABCD)))),
    ([0xF8], .clc),
    ([0xF9], .stc),
    ([0xFA], .cli),
    ([0xFB], .sti),
    ([0xFC], .cld),
    ([0xFD], .std)] : List (List Byte × Instr)).all reads = true := by decide +kernel

/-- The vectors ENC-2 to ENC-26 of 95_test_vectors.md that are one row. -/
theorem test_decode_vectors : ([
    ([0x8B, 0xC3], .movGwEw .ax (.reg .bx)), ([0x8B, 0x00], .movGwEw .ax (.mem (.base .bxSi .none))),
    ([0x8B, 0x46, 0x00], .movGwEw .ax (.mem (.base .bp (.d8 0)))),
    ([0x8B, 0x06, 0x34, 0x12], .movGwEw .ax (.mem (.direct 0x1234))),
    ([0x8B, 0x87, 0x00, 0xF0], .movGwEw .ax (.mem (.base .bx (.d16 0xF000)))),
    ([0xC7, 0x86, 0xFE, 0xFF, 0x34, 0x12], .movEwIw (.mem (.base .bp (.d16 0xFFFE))) 0x1234),
    ([0x81, 0xC3, 0xFF, 0x00], .addEwIw (.reg .bx) 0x00FF), ([0x83, 0xC3, 0xFF], .addEwIbSx (.reg .bx) 0xFF),
    ([0xF6, 0xC3, 0x01], .testEbIb (.reg .bl) 1), ([0xF7, 0xC3, 0x01, 0x00], .testEwIw (.reg .bx) 1),
    ([0xA0, 0x10, 0x00], .movAlOb 0x0010), ([0xD4, 0x0A], .aamIb 0x0A), ([0x90], .nop), ([0x93], .xchgAxR16 .bx)]
    : List (List Byte × Instr)).all reads = true := by decide +kernel

/-- The vectors ENC-U1 to ENC-U17: each matches no row. -/
theorem test_decode_unknown : ([[0x0F], [0x60], [0xC8], [0xD6], [0xF1], [0x8F, 0xC8], [0x8E, 0xC8], [0x8C, 0xE0], [0xFF, 0xFF],
    [0xFF, 0xE8], [0x8D, 0xC0], [0xC4, 0xC0], [0x82, 0xC8, 0x01], [0xD0, 0xF0], [0xF6, 0xC8], [0xFE, 0xD0], [0xC6, 0xC8, 0x00]]
    : List (List Byte)).all (fun l => decode l == .unknown (l.headD 0)) = true := by decide +kernel

theorem test_decode_truncated : decode [0xC7, 0x06, 0x04, 0x00, 0x34] = .truncated := by decide

theorem test_encode_far : encode (.callAp 0 0x2000) = [0x9A, 0x00, 0x00, 0x00, 0x20] := by decide

/-! ## One step on a small state -/

/-- A state with its general registers 0, CS = 1000, DS = 2000, SS = 3000, ES = 4000 and SP = 0100. -/
def base : State :=
  { State.reset with
    regs := ⟨0, 0, 0, 0, 0x0100, 0, 0, 0⟩
    segs := ⟨0x4000, 0x1000, 0x3000, 0x2000⟩
    intaVector := 8
    draws := 0 }

/-- Bytes in memory from a physical address up. -/
def put (a : Nat) (bs : List Byte) (s : State) : State := { s with mem := writeBytesAt bs a s.mem }

/-- An instruction's bytes at CS:IP. -/
def code (bs : List Byte) (s : State) : State := put (phys (s.seg .cs) s.pc).toNat bs s

/-- What is seen of the state after one step. -/
def sees {α : Type} (f : State → α) (s : State) : Option α :=
  match step s with
  | .next t => some (f t)
  | _ => none

/-- FLAGS of a state with a value in it. -/
def flagged (w : Word) (s : State) : State := { s with flags := w }

/-! ### Memory (MEM-1 to MEM-13) -/

theorem test_phys : (phys 0xFFFF 0, phys 0xFFFF 0x000F, phys 0xFFFF 0x0010, phys 0xFFFF 0xFFFF, phys 0x0FFF 0x0015) =
    (0xFFFF0, 0xFFFFF, 0x00000, 0x0FFEF, 0x10005) := by decide

/-- MEM-11: a word at offset FFFF wraps in its segment. -/
theorem test_write16_wraps : let t := base.write16 0x2000 0xFFFF 0x1234
    (t.memByte 0x2FFFF, t.memByte 0x20000, t.latch) = (0x34, 0x12, 0x20000) := by decide +kernel

/-- MEM-7, MEM-8: no host access past the last byte. -/
theorem test_host_bounds : (sees State.reply { base with agenda := [.readBytes 0xFFFFF 2] },
    sees (fun t => (t.reply, t.mem)) { base with agenda := [.writeBytes 0x100000 [0x12]] }) =
    (some .outOfBounds, some (.outOfBounds, [])) := by decide +kernel

/-- SRC-7. -/
theorem test_compute_physical : sees (fun t => (t.reply, t.latch, t.lastEa))
    { base with agenda := [.computePhysical .cs 5] } = some (.phys 0x10005, 0x10005, 0x10005) := by decide +kernel

/-! ### The queue and the cycle engine (SRC-3, QUE-6, PIP-2 to PIP-7) -/

theorem test_queue_full : ((⟨0, [1, 2, 3, 4]⟩ : BoundedQueue Byte 4).push 5) = none := by decide

/-- QUE-6. -/
theorem test_queue_turns : let q : BoundedQueue Byte 4 := (((BoundedQueue.empty : BoundedQueue Byte 4).tryExtend [1, 2, 3, 4]).2.drainPart 2).2
    ((q.tryExtend [5, 6]).2.items, (q.tryExtend [5, 6]).2.head, (q.tryExtend [5, 6]).2.tail) = ([3, 4, 5, 6], 2, 2) := by decide

/-- The last of five T-states delivers a byte. -/
theorem test_deliver : let t := (code [0xB8] { base with tstate := .t3 }).stepCycle
    (t.tstate, t.queue.items, t.pc, t.ip) = (.t4, [0xB8], 1, 0) := by decide +kernel

/-- With a full queue the engine stalls. -/
theorem test_stall : let t := { base with tstate := .t3, queue := ⟨0, [1, 2, 3, 4]⟩, pc := 4 }.stepCycle
    (t.tstate, t.queue.items, t.pc, t.deliveryPending) = (.t4, [1, 2, 3, 4], 4, true) := by decide +kernel

/-! ### The driver (PIP-6, PIP-10, PIP-13, PIP-14, PIP-16, PIP-20) -/

theorem test_nop_from_queue : sees (fun t => (t.queue.items, t.pc, t.ip, t.tstate, t.deliveryPending))
    { base with queue := ⟨0, [0x90, 1, 2, 3]⟩, pc := 4, tstate := .t4, deliveryPending := true } =
    some ([1, 2, 3], 4, 1, .t4, true) := by decide +kernel

theorem test_jump_flushes : sees (fun t => (t.queue.items, t.pc, t.ip, t.tstate))
    { base with queue := ⟨0, [0xEB, 0, 0x90, 0x90]⟩, pc := 4, tstate := .t2 } = some ([], 2, 2, .idle) := by decide +kernel

theorem test_untaken_keeps_queue : sees (fun t => (t.queue.items, t.pc, t.ip, t.tstate))
    { base with queue := ⟨0, [0x74, 2, 0x90, 0x90]⟩, pc := 4, tstate := .t2 } = some ([0x90, 0x90], 4, 2, .t2) := by
  decide +kernel

theorem test_breakpoint : sees (fun t => (t.reply, t.bpSkip, t.ip)) (code [0x90] { base with breakpoints := [0x10000] }) =
    some (.breakpoint, true, 0) := by decide +kernel

theorem test_breakpoint_passed : sees (fun t => (t.reply, t.bpSkip, t.ip))
    (code [0x90] { base with breakpoints := [0x10000], bpSkip := true }) = some (.okay, false, 1) := by decide +kernel

/-- The refusal a step answers. -/
def stops (s : State) : Option Refusal :=
  match step s with
  | .refused r => some r
  | _ => none

theorem test_unknown : stops (code [0x26, 0x0F] base) = some (.unknownOpcode 0x0F) := by decide +kernel

/-- ENC-U18: REP before an opcode that is no string instruction. -/
theorem test_rep_nop : stops (code [0xF3, 0x90] base) = some (.unknownOpcode 0x90) := by decide +kernel

theorem test_halted : sees (fun t => (t.reply, t.halted)) { base with halted := true } = some (.halted, true) := by
  decide +kernel

/-! ### Data transfer -/

theorem test_dat_2 : sees (fun t => (t.reg16 .ax, t.ip)) (code [0xB4, 0x56] (base.setReg16 .ax 0x1234)) =
    some (0x5634, 2) := by decide +kernel

theorem test_dat_4 : sees (fun t => (t.reg8 .al, t.latch))
    (put 0x20012 [0x9C] (code [0x8A, 0x47, 0x02] (base.setReg16 .bx 0x10))) = some (0x9C, 0x20012) := by decide +kernel

theorem test_dat_5 : sees (fun t => (t.reg16 .ax, t.latch))
    (put 0x300FE [0x11, 0x22] (code [0x8B, 0x46, 0xFE] (base.setReg16 .bp 0x100))) = some (0x2211, 0x300FF) := by
  decide +kernel

/-- DAT-6: an override replaces SS. -/
theorem test_dat_6 : sees (fun t => (t.reg16 .ax, t.ip))
    (put 0x200FE [0x33, 0x44] (code [0x3E, 0x8B, 0x46, 0xFE] (base.setReg16 .bp 0x100))) = some (0x4433, 4) := by
  decide +kernel

theorem test_dat_8 : sees (fun t => t.memByte 0x20100) (code [0xA2, 0x00, 0x01] (base.setReg16 .ax 0x5A)) =
    some 0x5A := by decide +kernel

theorem test_dat_11 : sees (fun t => t.reg16 .ax) (code [0x8C, 0xD8] base) = some 0x2000 := by decide +kernel

/-- DAT-14: PUSH SP stores the lowered SP. -/
theorem test_dat_14 : sees (fun t => (t.reg16 .sp, t.wordAt 0x3000 0x00FE)) (code [0x54] base) = some (0x00FE, 0x00FE) := by
  decide +kernel

/-- DAT-16: a push that wraps in the stack segment. -/
theorem test_dat_16 : sees (fun t => (t.reg16 .sp, t.memByte 0x3FFFF, t.memByte 0x30000))
    (code [0x50] ((base.setReg16 .sp 1).setReg16 .ax 0x1234)) = some (0xFFFF, 0x34, 0x12) := by decide +kernel

theorem test_dat_17 : sees (fun t => (t.reg16 .bx, t.reg16 .sp))
    (put 0x3FFFE [0x78, 0x56] (code [0x5B] (base.setReg16 .sp 0xFFFE))) = some (0x5678, 0) := by decide +kernel

theorem test_dat_18 : sees (fun t => (t.seg .ds, t.reg16 .sp)) (put 0x30100 [0x00, 0xB8] (code [0x1F] base)) =
    some (0xB800, 0x0102) := by decide +kernel

theorem test_dat_19 : sees (fun t => (t.reg16 .sp, t.wordAt 0x3000 0x00FE))
    (put 0x20100 [0x34, 0x12] (code [0xFF, 0x36, 0x00, 0x01] base)) = some (0x00FE, 0x1234) := by decide +kernel

theorem test_dat_20 : sees (fun t => (t.reg16 .sp, t.wordAt 0x2000 0x0100))
    (put 0x300FE [0x34, 0x12] (code [0x8F, 0x06, 0x00, 0x01] (base.setReg16 .sp 0x00FE))) = some (0x0100, 0x1234) := by
  decide +kernel

theorem test_dat_23 : sees (fun t => (t.reg16 .ax, t.wordAt 0x2000 0))
    (put 0x20000 [0x22, 0x22] (code [0x87, 0x07] (base.setReg16 .ax 0x1111))) = some (0x2222, 0x1111) := by decide +kernel

theorem test_dat_25 : sees (fun t => t.reg8 .al)
    (put 0x20001 [0x66] (code [0xD7] ((base.setReg16 .bx 0xFFFF).setReg16 .ax 2))) = some 0x66 := by decide +kernel

theorem test_dat_26 : sees (fun t => (t.reg16 .ax, t.latch))
    (code [0x8D, 0x40, 0x05] ((base.setReg16 .bx 0x1000).setReg16 .si 0x20)) = some (0x1025, 0) := by decide +kernel

theorem test_dat_27 : sees (fun t => (t.reg16 .si, t.seg .ds))
    (put 0x20200 [0x78, 0x56, 0x34, 0x12] (code [0xC5, 0x36, 0x00, 0x02] base)) = some (0x5678, 0x1234) := by decide +kernel

theorem test_dat_28 : sees (fun t => (t.reg16 .di, t.seg .es))
    (put 0x20200 [0x78, 0x56, 0x34, 0x12] (code [0xC4, 0x3E, 0x00, 0x02] base)) = some (0x5678, 0x1234) := by decide +kernel

theorem test_dat_29 : sees (fun t => t.reg8 .ah) (code [0x9F] (flagged 0xF0D7 base)) = some 0xD7 := by decide +kernel

/-- DAT-31: SAHF keeps the bits it does not write. -/
theorem test_dat_31 : sees State.flags (code [0x9E] (flagged 0xF8D7 base)) = some 0xF802 := by decide +kernel

theorem test_dat_32 : sees (fun t => t.wordAt 0x3000 0x00FE) (code [0x9C] (flagged 0xF202 base)) = some 0xF202 := by
  decide +kernel

theorem test_dat_34 : sees State.flags (put 0x30100 [0xFF, 0xFF] (code [0x9D] base)) = some 0xFFD7 := by decide +kernel

/-! ### Arithmetic -/

theorem test_ari_1 : sees (fun t => (t.reg8 .al, t.flags)) (code [0x04, 0x01] (base.setReg16 .ax 0x7F)) =
    some (0x80, 0xF892) := by decide +kernel

theorem test_ari_2 : sees (fun t => (t.reg8 .al, t.flags)) (code [0x04, 0x80] (base.setReg16 .ax 0x80)) =
    some (0x00, 0xF847) := by decide +kernel

theorem test_ari_4 : sees (fun t => (t.reg16 .bx, t.flags)) (code [0x83, 0xC3, 0xFF] base) = some (0xFFFF, 0xF086) := by
  decide +kernel

theorem test_ari_5 : sees (fun t => (t.reg8 .al, t.flags)) (code [0x14, 0x00] (flagged 0xF003 (base.setReg16 .ax 0xFF))) =
    some (0x00, 0xF057) := by decide +kernel

theorem test_ari_6 : sees (fun t => (t.reg8 .al, t.flags)) (code [0x2C, 0x01] (base.setReg16 .ax 0x80)) =
    some (0x7F, 0xF812) := by decide +kernel

theorem test_ari_8 : sees (fun t => (t.reg16 .ax, t.flag .cf)) (code [0x19, 0xC0] (flagged 0xF003 base)) =
    some (0xFFFF, true) := by decide +kernel

theorem test_ari_9 : sees (fun t => (t.reg16 .ax, t.flags)) (code [0x3D, 0x05, 0x00] (base.setReg16 .ax 3)) =
    some (3, 0xF093) := by decide +kernel

theorem test_ari_12 : sees (fun t => (t.reg8 .al, t.flags)) (code [0xFE, 0xC0] (base.setReg16 .ax 0xFF)) =
    some (0, 0xF056) := by decide +kernel

theorem test_ari_13 : sees (fun t => (t.reg16 .ax, t.flags)) (code [0x48] (flagged 0xF003 (base.setReg16 .ax 0x8000))) =
    some (0x7FFF, 0xF817) := by decide +kernel

theorem test_ari_14 : sees (fun t => (t.reg8 .al, t.flags)) (code [0xF6, 0xD8] (base.setReg16 .ax 0x80)) =
    some (0x80, 0xF883) := by decide +kernel

theorem test_ari_16 : sees (fun t => (t.reg16 .dx, t.reg16 .ax))
    (code [0xF7, 0xE3] ((base.setReg16 .ax 0xFFFF).setReg16 .bx 0xFFFF)) = some (0xFFFE, 0x0001) := by decide +kernel

theorem test_ari_17 : sees (fun t => t.reg16 .ax) (code [0xF6, 0xE3] ((base.setReg16 .ax 0x0F).setReg16 .bx 2)) =
    some 0x001E := by decide +kernel

theorem test_ari_18 : sees (fun t => (t.reg16 .dx, t.reg16 .ax))
    (code [0xF7, 0xEB] ((base.setReg16 .ax 0xFFFF).setReg16 .bx 2)) = some (0xFFFF, 0xFFFE) := by decide +kernel

theorem test_ari_19 : sees (fun t => t.reg16 .ax) (code [0xF6, 0xEB] ((base.setReg16 .ax 0x80).setReg16 .bx 0x80)) =
    some 0x4000 := by decide +kernel

theorem test_ari_20 : sees (fun t => (t.reg8 .al, t.reg8 .ah))
    (code [0xF6, 0xF3] ((base.setReg16 .ax 0x01FE).setReg16 .bx 2)) = some (0xFF, 0x00) := by decide +kernel

theorem test_ari_21 : sees (fun t => (t.reg16 .ax, t.reg16 .dx))
    (code [0xF7, 0xF3] ((base.setReg16 .dx 1).setReg16 .bx 2)) = some (0x8000, 0) := by decide +kernel

/-- ARI-23: the quotient 100 does not fit. -/
theorem test_ari_23 : sees (fun t => (t.reg16 .sp, t.reg16 .dx, t.queue.items))
    (code [0xF6, 0xF3] ((base.setReg16 .ax 0x0200).setReg16 .bx 2)) = some (0x00FA, 0, []) := by decide +kernel

theorem test_ari_25 : sees (fun t => (t.reg8 .al, t.reg8 .ah))
    (code [0xF6, 0xFB] ((base.setReg16 .ax 0xFFF9).setReg16 .bx 2)) = some (0xFD, 0xFF) := by decide +kernel

theorem test_ari_26 : sees (fun t => (t.reg8 .al, t.reg8 .ah))
    (code [0xF6, 0xFB] ((base.setReg16 .ax 7).setReg16 .bx 0xFE)) = some (0xFD, 0x01) := by decide +kernel

/-- ARI-28: the most negative quotient. -/
theorem test_ari_28 : sees (fun t => t.reg16 .sp)
    (code [0xF7, 0xFB] (((base.setReg16 .dx 0xFFFF).setReg16 .ax 0x8000).setReg16 .bx 1)) = some 0x00FA := by decide +kernel

theorem test_ari_32 : sees (fun t => t.reg8 .al) (code [0x27] (base.setReg16 .ax 0xAE)) = some 0x14 := by decide +kernel

theorem test_ari_33 : sees (fun t => t.reg8 .al) (code [0x2F] (flagged 0xF013 (base.setReg16 .ax 0xEE))) = some 0x88 := by
  decide +kernel

theorem test_ari_35 : sees (fun t => t.reg16 .ax) (code [0x37] (base.setReg16 .ax 0x00FA)) = some 0x0100 := by decide +kernel

theorem test_ari_36 : sees (fun t => t.reg16 .ax) (code [0x3F] (flagged 0xF012 (base.setReg16 .ax 0x00FD))) =
    some 0xFF07 := by decide +kernel

theorem test_ari_38 : sees (fun t => t.reg16 .ax) (code [0xD4, 0x10] (base.setReg16 .ax 0x3F)) = some 0x030F := by
  decide +kernel

theorem test_ari_40 : sees (fun t => t.reg16 .ax) (code [0xD5, 0x0A] (base.setReg16 .ax 0x0603)) = some 0x003F := by
  decide +kernel

theorem test_ari_41 : sees (fun t => t.reg16 .ax) (code [0x98] (base.setReg16 .ax 0x80)) = some 0xFF80 := by decide +kernel

theorem test_ari_43 : sees (fun t => (t.reg16 .dx, t.reg16 .ax)) (code [0x99] (base.setReg16 .ax 0x8000)) =
    some (0xFFFF, 0x8000) := by decide +kernel

/-! ### Logic, shifts and rotates -/

theorem test_log_1 : sees (fun t => t.reg16 .ax) (code [0x25, 0x0F, 0x00] (base.setReg16 .ax 0x1234)) = some 4 := by
  decide +kernel

theorem test_log_2 : sees (fun t => t.reg8 .al) (code [0x0C, 0x80] (base.setReg16 .ax 1)) = some 0x81 := by decide +kernel

theorem test_log_3 : sees (fun t => t.reg16 .ax) (code [0x31, 0xC0] (base.setReg16 .ax 0xBEEF)) = some 0 := by decide +kernel

theorem test_log_4 : sees (fun t => t.reg8 .al) (code [0xA8, 0x80] (base.setReg16 .ax 0x80)) = some 0x80 := by decide +kernel

theorem test_log_5 : sees (fun t => (t.reg8 .al, t.flags)) (code [0xF6, 0xD0] (flagged 0xF0D7 (base.setReg16 .ax 0x0F))) =
    some (0xF0, 0xF0D7) := by decide +kernel

theorem test_log_6 : sees (fun t => (t.reg8 .al, t.flags)) (code [0xD0, 0xC0] (base.setReg16 .ax 0x81)) =
    some (0x03, 0xF803) := by decide +kernel

theorem test_log_8 : sees (fun t => (t.reg8 .al, t.flags)) (code [0xD0, 0xC8] (base.setReg16 .ax 1)) =
    some (0x80, 0xF803) := by decide +kernel

theorem test_log_9 : sees (fun t => (t.reg8 .al, t.flags)) (code [0xD0, 0xD0] (base.setReg16 .ax 0x80)) =
    some (0x00, 0xF803) := by decide +kernel

/-- LOG-10: nine turns of nine bits. -/
theorem test_log_10 : sees (fun t => t.reg8 .al)
    (code [0xD2, 0xD0] (flagged 0xF003 ((base.setReg16 .ax 0x5A).setReg16 .cx 9))) = some 0x5A := by decide +kernel

theorem test_log_11 : sees (fun t => (t.reg8 .al, t.flags)) (code [0xD0, 0xD8] (flagged 0xF003 (base.setReg16 .ax 1))) =
    some (0x80, 0xF803) := by decide +kernel

theorem test_log_13 : sees (fun t => t.reg16 .ax) (code [0xD3, 0xE0] ((base.setReg16 .ax 0x1234).setReg16 .cx 4)) =
    some 0x2340 := by decide +kernel

theorem test_log_16 : sees (fun t => t.reg16 .ax) (code [0xD3, 0xE8] ((base.setReg16 .ax 0x8001).setReg16 .cx 0x10)) =
    some 0 := by decide +kernel

/-- LOG-18: counts are not masked. -/
theorem test_log_18 : sees (fun t => t.reg8 .al) (code [0xD2, 0xF8] ((base.setReg16 .ax 0x80).setReg16 .cx 200)) =
    some 0xFF := by decide +kernel

/-- LOG-19: a count of 0 reads and writes nothing. -/
theorem test_log_19 : sees (fun t => (t.flags, t.latch)) (code [0xD2, 0x26, 0x00, 0x01] base) = some (0xF002, 0x20100) := by
  decide +kernel

/-! ### Strings -/

/-- STR-2: downward. -/
theorem test_str_2 : sees (fun t => (t.wordAt 0x4000 0x20, t.reg16 .si, t.reg16 .di))
    (put 0x20010 [0xCD, 0xAB] (code [0xA5] (flagged 0xF402 ((base.setReg16 .si 0x10).setReg16 .di 0x20)))) =
    some (0xABCD, 0x000E, 0x001E) := by decide +kernel

/-- STR-3: the source takes the override. -/
theorem test_str_3 : sees (fun t => t.memByte 0x40010) (put 0x40000 [0x77] (code [0x26, 0xA4] (base.setReg16 .di 0x10))) =
    some 0x77 := by decide +kernel

theorem test_str_4 : sees (fun t => (t.wordAt 0x4000 0, t.memByte 0x40002, t.reg16 .cx, t.reg16 .si, t.reg16 .di))
    (put 0x20000 [0x11, 0x22, 0x33] (code [0xF3, 0xA4] (base.setReg16 .cx 3))) = some (0x2211, 0x33, 0, 3, 3) := by
  decide +kernel

theorem test_str_6 : sees (fun t => (t.reg16 .cx, t.flags, t.reg16 .si, t.reg16 .di))
    (put 0x20000 [0x41, 0x42, 0x43, 0x44] (put 0x40000 [0x41, 0x42, 0x58, 0x44] (code [0xF3, 0xA6] (base.setReg16 .cx 4)))) =
    some (1, 0xF097, 3, 3) := by decide +kernel

theorem test_str_8 : sees (fun t => (t.reg16 .cx, t.flag .zf, t.reg16 .di))
    (put 0x40000 [1, 2, 3, 4, 5] (code [0xF2, 0xAE] (base.setReg16 .cx 0x10))) = some (0x000A, true, 6) := by decide +kernel

/-- STR-9: a count of 0 accesses nothing. -/
theorem test_str_9 : sees (fun t => (t.mem == (code [0xF3, 0xAA] base).mem, t.ip, t.latch)) (code [0xF3, 0xAA] base) =
    some (true, 2, 0) := by decide +kernel

theorem test_str_11 : sees (fun t => (t.reg8 .al, t.reg16 .si))
    (put 0x2FFFF [0x42] (code [0xAC] (base.setReg16 .si 0xFFFF))) = some (0x42, 0) := by decide +kernel

theorem test_str_13 : sees (fun t => (t.flag .zf, t.reg16 .di))
    (put 0x40000 [0x34, 0x12] (code [0xAF] (base.setReg16 .ax 0x1234))) = some (true, 2) := by decide +kernel

/-- STR-15: INTR suspends a repetition after one element. -/
theorem test_str_15 : sees (fun t => (t.reg16 .cx, t.reg16 .si, t.wordAt 0x3000 0x00FA, t.seg .cs, t.ip, t.flags))
    (put 0x20 [0x00, 0x04, 0x00, 0x00]
      (code [0xF3, 0xA4] (flagged 0xF202 { base.setReg16 .cx 3 with intr := true }))) =
    some (2, 1, 0, 0, 0x0400, 0xF002) := by decide +kernel

/-! ### Control transfer -/

theorem test_ctl_2 : sees State.ip (code [0xEB, 0xFE] { base with pc := 0x0100 }) = some 0x0100 := by decide +kernel

theorem test_ctl_5 : sees State.ip (code [0xE9, 0xFD, 0xFF] { base with pc := 0xFFF0 }) = some 0xFFF0 := by decide +kernel

theorem test_ctl_6 : sees (fun t => (t.seg .cs, t.ip)) (code [0xFF, 0xE0] (base.setReg16 .ax 0x2000)) =
    some (0x1000, 0x2000) := by decide +kernel

theorem test_ctl_7 : sees (fun t => (t.seg .cs, t.ip)) (code [0xEA, 0x5B, 0xE0, 0x00, 0xF0] base) =
    some (0xF000, 0xE05B) := by decide +kernel

theorem test_ctl_8 : sees (fun t => (t.seg .cs, t.ip))
    (put 0x20100 [0x34, 0x12, 0x00, 0x20] (code [0xFF, 0x2E, 0x00, 0x01] base)) = some (0x2000, 0x1234) := by decide +kernel

theorem test_ctl_9 : sees (fun t => (t.reg16 .sp, t.wordAt 0x3000 0x00FE, t.ip))
    (code [0xE8, 0x10, 0x00] { base with pc := 0x0100 }) = some (0x00FE, 0x0103, 0x0113) := by decide +kernel

theorem test_ctl_10 : sees (fun t => (t.wordAt 0x3000 0x00FE, t.ip))
    (code [0xFF, 0xD3] { base.setReg16 .bx 0x0400 with pc := 0x0200 }) = some (0x0202, 0x0400) := by decide +kernel

theorem test_ctl_11 : sees (fun t => (t.wordAt 0x3000 0x00FE, t.wordAt 0x3000 0x00FC, t.seg .cs, t.ip))
    (code [0x9A, 0x00, 0x00, 0x00, 0x20] { base with pc := 0x0100 }) = some (0x1000, 0x0105, 0x2000, 0) := by decide +kernel

theorem test_ctl_12 : sees (fun t => (t.wordAt 0x3000 0x00FC, t.seg .cs, t.ip))
    (put 0x20100 [0x34, 0x12, 0x00, 0x30] (code [0xFF, 0x1E, 0x00, 0x01] { base with pc := 0x0100 })) =
    some (0x0104, 0x3000, 0x1234) := by decide +kernel

theorem test_ctl_13 : sees (fun t => (t.ip, t.reg16 .sp)) (put 0x30100 [0x03, 0x01] (code [0xC3] base)) =
    some (0x0103, 0x0102) := by decide +kernel

theorem test_ctl_14 : sees (fun t => (t.ip, t.reg16 .sp)) (put 0x30100 [0x00, 0x02] (code [0xC2, 0x04, 0x00] base)) =
    some (0x0200, 0x0106) := by decide +kernel

theorem test_ctl_16 : sees (fun t => (t.seg .cs, t.ip, t.reg16 .sp))
    (put 0x30100 [0x05, 0x01, 0x00, 0x20] (code [0xCA, 0x02, 0x00] base)) = some (0x2000, 0x0105, 0x0106) := by decide +kernel

/-- CTL-17 and CTL-18: after ARI-9 the first eight jump, the others do not. -/
theorem test_ctl_17 : ([0x72, 0x76, 0x7C, 0x7E, 0x78, 0x71, 0x75, 0x7B].map
    (fun op : Byte => sees State.ip (code [op, 0x10] (flagged 0xF093 base)))).all (· == some 0x12) = true := by decide +kernel

theorem test_ctl_18 : ([0x73, 0x77, 0x7D, 0x7F, 0x79, 0x70, 0x74, 0x7A].map
    (fun op : Byte => sees State.ip (code [op, 0x10] (flagged 0xF093 base)))).all (· == some 0x02) = true := by decide +kernel

theorem test_ctl_22 : sees (fun t => (t.reg16 .cx, t.ip)) (code [0xE2, 0xFC] { base with pc := 0x0107 }) =
    some (0xFFFF, 0x0105) := by decide +kernel

theorem test_ctl_23 : sees (fun t => (t.reg16 .cx, t.ip)) (code [0xE1, 0xFC] { base.setReg16 .cx 5 with pc := 0x0107 }) =
    some (4, 0x0109) := by decide +kernel

theorem test_ctl_24 : sees (fun t => (t.reg16 .cx, t.ip)) (code [0xE0, 0xFC] { base.setReg16 .cx 1 with pc := 0x0107 }) =
    some (0, 0x0109) := by decide +kernel

theorem test_ctl_25 : sees (fun t => (t.reg16 .cx, t.ip)) (code [0xE3, 0x02] { base with pc := 0x0100 }) =
    some (0, 0x0104) := by decide +kernel

theorem test_ctl_27 : sees (fun t => (t.wordAt 0x3000 0x00FA, t.wordAt 0x3000 0x00FC, t.wordAt 0x3000 0x00FE, t.flags, t.seg .cs, t.ip))
    (put 0x84 [0x00, 0x05, 0x00, 0x07] (code [0xCD, 0x21] (flagged 0xF202 { base with pc := 0x0100 }))) =
    some (0x0102, 0x1000, 0xF202, 0xF002, 0x0700, 0x0500) := by decide +kernel

theorem test_ctl_28 : sees (fun t => (t.wordAt 0x3000 0x00FA, t.seg .cs, t.ip))
    (put 0x0C [0x00, 0x03, 0x00, 0x00] (code [0xCC] { base with pc := 0x0200 })) = some (0x0201, 0, 0x0300) := by decide +kernel

theorem test_ctl_29 : sees (fun t => (t.seg .cs, t.ip)) (code [0xCE] base) = some (0x1000, 1) := by decide +kernel

theorem test_ctl_30 : sees (fun t => (t.seg .cs, t.ip))
    (put 0x10 [0x00, 0x04, 0x00, 0x00] (code [0xCE] (flagged 0xF802 base))) = some (0, 0x0400) := by decide +kernel

theorem test_ctl_31 : sees (fun t => (t.seg .cs, t.ip, t.flags, t.reg16 .sp))
    (put 0x300FA [0x02, 0x01, 0x00, 0x20, 0x00, 0x02] (code [0xCF] (base.setReg16 .sp 0x00FA))) =
    some (0x2000, 0x0102, 0xF202, 0x0100) := by decide +kernel

/-! ### Processor control -/

theorem test_prc_flags : ([0xF8, 0xF9, 0xF5, 0xFC, 0xFD, 0xFA].map
    (fun op : Byte => (sees State.flags (code [op] (flagged 0xF002 base)), sees State.flags (code [op] (flagged 0xF603 base))))) =
    [(some 0xF002, some 0xF602), (some 0xF003, some 0xF603), (some 0xF003, some 0xF602), (some 0xF002, some 0xF203),
      (some 0xF402, some 0xF603), (some 0xF002, some 0xF403)] := by decide +kernel

/-- STI, apart from the boundary, where STI_SHADOW decides. -/
theorem test_prc_7 : (match exec .sti base with | .next t => some t.flags | _ => none) = some 0xF202 := by decide +kernel

theorem test_prc_8 : sees (fun t => (t.halted, t.ip, t.reply)) (code [0xF4] { base with pc := 0x0109 }) =
    some (true, 0x010A, .okay) := by decide +kernel

theorem test_prc_10 : sees (fun t => (t.ip, t.reply)) (code [0x9B] { base with pc := 0x0100, test := false }) =
    some (0x0100, .okay) := by decide +kernel

theorem test_prc_11 : sees (fun t => (t.latch, t.ip)) (code [0xD9, 0x06, 0x00, 0x01] base) = some (0x20100, 4) := by
  decide +kernel

theorem test_prc_13 : sees (fun t => (t.reg8 .al, t.memByte 0x20000))
    (put 0x20000 [0x22] (code [0xF0, 0x86, 0x07] (base.setReg16 .ax 0x11))) = some (0x22, 0x11) := by decide +kernel

theorem test_prc_14 : sees (fun t => t.reg8 .al)
    (put 0x10005 [0x3C] (code [0x2E, 0x8A, 0x07] (base.setReg16 .bx 5))) = some 0x3C := by decide +kernel

/-- The last of two overrides applies. -/
theorem test_last_override : sees (fun t => t.reg8 .al)
    (put 0x20005 [0x3C] (code [0x2E, 0x3E, 0x8A, 0x07] (base.setReg16 .bx 5))) = some 0x3C := by decide +kernel

/-! ### Ports and the floppy controller -/

theorem test_io_3 : sees (fun t => t.reg8 .al) (code [0xEC] (base.setReg16 .dx 0x03F4)) = some 0x80 := by decide +kernel

/-- IO-8: the low byte goes to MSR, the high byte to the data register. -/
theorem test_io_8 : sees (fun t => t.devices.map (fun d => match d with | .fdc f => some (f.phase, f.active) | _ => none))
    (code [0xEF] ((base.setReg16 .dx 0x03F4).setReg16 .ax 0x0300)) = some [some (.command, some ⟨3, .specify, 2, []⟩)] := by
  decide +kernel

theorem test_io_6 : sees (fun t => (t.devices.length, t.ip)) (code [0xE6, 0x80] base) = some (1, 2) := by decide +kernel

/-- A controller whose opaque state is 0. -/
def fdc0 : Fdc := ⟨.none, none, [], 0, 0, []⟩

/-- FDC-3 and FDC-6. -/
theorem test_fdc_select : ((fdc0.writeByte 0x3F5 0x00).log, (fdc0.writeByte 0x3F5 0xE6).active, (fdc0.writeByte 0x3F5 0xE6).phase) =
    ([0], some ⟨0xE6, .readData, 8, []⟩, .command) := by decide

/-- SRC-5, FDC-14: parameters, then Execution. -/
theorem test_fdc_specify : let f := ((fdc0.writeByte 0x3F5 0x03).writeByte 0x3F5 0x03).writeByte 0x3F5 0x02
    (f.phase, f.active) = (.execution, some ⟨3, .specify, 0, [3, 2]⟩) := by decide

/-- FDC-8: no parameter. -/
theorem test_fdc_sense : ((fdc0.writeByte 0x3F5 0x08).phase, msr (fdc0.writeByte 0x3F5 0x08).phase) = (.execution, 0xB0) := by
  decide

/-- FDC-10: result bytes first to last. -/
theorem test_fdc_result : let f : Fdc := { fdc0 with phase := .result, active := some ⟨8, .senseInterruptStatus, 0, []⟩, result := [0x20, 0x00] }
    ((f.readByte 0x3F5).1, ((f.readByte 0x3F5).2.readByte 0x3F5).1, (((f.readByte 0x3F5).2.readByte 0x3F5).2.readByte 0x3F5).1) =
    (some 0x20, some 0x00, none) := by decide

/-- SRC-6. -/
theorem test_sector_size : [0, 1, 2, 3, 4, 7, 0xFF].map sectorSize =
    [some 128, some 256, some 512, some 1024, none, none, none] := by decide

/-! ### Interrupts and the boundary -/

theorem test_int_1 : sees (fun t => (t.nmiLatched, t.wordAt 0x3000 0x00FA, t.wordAt 0x3000 0x00FE, t.reg16 .sp, t.seg .cs, t.ip))
    (put 8 [0x00, 0x05, 0x00, 0x00] (code [0x90] { base with pc := 0x0100, nmiLatched := true })) =
    some (false, 0x0101, 0xF002, 0x00FA, 0, 0x0500) := by decide +kernel

theorem test_int_2 : sees (fun t => (t.ip, t.intr)) (code [0x90] { base with intr := true }) = some (1, true) := by
  decide +kernel

/-- INT-4: NMI before INTR. -/
theorem test_int_4 : sees (fun t => (t.ip, t.intr)) (put 8 [0x00, 0x05, 0x00, 0x00] (put 0x20 [0x00, 0x04, 0x00, 0x00]
    (code [0x90] (flagged 0xF202 { base with intr := true, nmiLatched := true })))) = some (0x0500, true) := by decide +kernel

theorem test_int_5 : sees (fun t => (t.wordAt 0x3000 0x00FE, t.flags, t.ip))
    (put 4 [0x00, 0x06, 0x00, 0x00] (code [0x90] (flagged 0xF102 base))) = some (0xF102, 0xF002, 0x0600) := by decide +kernel

/-- INT-6: no trap after the POPF that sets TF. -/
theorem test_int_6 : sees (fun t => (t.flags, t.ip)) (put 0x30100 [0x02, 0xF1] (code [0x9D] base)) = some (0xF102, 1) := by
  decide +kernel

/-- INT-8 and INT-9: a load of SS holds everything off for one boundary. -/
theorem test_int_8 : sees (fun t => (t.inhibit, t.nmiLatched, t.ip)) (code [0x8E, 0xD0] (flagged 0xF102 { base with nmiLatched := true })) =
    some (false, true, 2) := by decide +kernel

theorem test_int_10 : sees (fun t => (t.halted, t.wordAt 0x3000 0x00FA, t.ip))
    (put 0x20 [0x00, 0x04, 0x00, 0x00] (flagged 0xF202 { base with halted := true, intr := true, pc := 0x010A })) =
    some (false, 0x010A, 0x0400) := by decide +kernel

/-- INT-12: HLT, and the same boundary leaves the halt. -/
theorem test_int_12 : sees (fun t => (t.halted, t.wordAt 0x3000 0x00FA))
    (code [0xF4] { base with pc := 0x0109, nmiLatched := true }) = some (false, 0x010A) := by decide +kernel

/-- INT-14: the frame wraps in the stack segment. -/
theorem test_int_14 : sees (fun t => (t.wordAt 0x3000 0, t.wordAt 0x3000 0xFFFE, t.wordAt 0x3000 0xFFFC, t.reg16 .sp))
    (code [0xCD, 0x10] (base.setReg16 .sp 2)) = some (0xF002, 0x1000, 2, 0xFFFC) := by decide +kernel

/-! ### Reset and the host -/

/-- RST-4: a write of CS flushes and keeps IP. -/
theorem test_rst_4 : sees (fun t => (t.queue.items, t.seg .cs, t.pc, t.ip))
    { base with queue := ⟨0, [1, 2, 3]⟩, pc := 0x0013, agenda := [.writeSeg .cs 0x2000] } = some ([], 0x2000, 0x0010, 0x0010) := by
  decide +kernel

/-- RST-6. -/
theorem test_rst_6 : (sees State.flags { base with agenda := [.writeFlags 0] },
    sees State.flags { base with agenda := [.writeFlags 0xFFFF] }) = (some 0xF002, some 0xFFD7) := by decide +kernel

/-- RST-3. -/
theorem test_rst_3 : sees (fun t => (t.seg .cs, t.ip, t.flags, t.halted, t.memByte 5))
    (put 5 [1] { base with halted := true, agenda := [.reset] }) = some (0xFFFF, 0, 0xF002, false, 1) := by decide +kernel

/-! ## Witnesses: a state and operands that meet the hypotheses of each statement that has some, clause by clause -/

/-- `base` with a segment override and a repeat prefix in its context. -/
def within (ovr : Option Seg) (rep : Option Rep) (s : State) : State := { s with ctx := { s.ctx with ovr := ovr, rep := rep } }

/-- `base` with DX, AX and BX. -/
def divides (dx ax bx : Word) : State := ((base.setReg16 .dx dx).setReg16 .ax ax).setReg16 .bx bx

theorem witness_DecodeEncode : (Instr.movEwIw (.mem (.base .bp (.d8 0))) 0xFFFF).wf = true ∧
    (Instr.intIb 0xFF).wf = true ∧ (Instr.esc 7 7 (.reg .di)).wf = true := by decide

theorem witness_DecodedLength : decode (0xC7 :: [0x86, 0xFE, 0xFF, 0x34, 0x12]) =
      .ok (.movEwIw (.mem (.base .bp (.d16 0xFFFE))) 0x1234) [] ∧ decode (0x90 :: []) = .ok .nop [] := by decide +kernel

theorem witness_StepRunsDecoded : let s := code [0x90] base
    s.agenda = [] ∧ s.halted = false ∧ s.atBreakpoint = false ∧ decode (s.window maxLength) = .ok .nop [0, 0, 0, 0, 0] ∧
      Instr.nop.isPrefix = false := by decide +kernel

/-- The cases of reading an instruction: an unknown opcode; a prefix byte; a repeat prefix before another opcode; an
instruction after a repeat prefix or without one. -/
theorem witness_PrefixRead : decode ((code [0x0F] base).window maxLength) = .unknown 0x0F ∧
    decode ((code [0x2E, 0x90] base).window maxLength) = .ok .segCs [0x90, 0, 0, 0, 0] ∧
    Instr.segCs.isPrefix = true ∧
    (decode ((code [0x90] (within none (some .repe) base)).window maxLength) = .ok .nop [0, 0, 0, 0, 0] ∧
      Instr.nop.isPrefix = false ∧ (within none (some .repe) base).ctx.rep ≠ none ∧ asString .nop = none) ∧
    (decode ((code [0xA4] (within none (some .repe) base)).window maxLength) = .ok .movsb [0, 0, 0, 0, 0] ∧
      Instr.movsb.isPrefix = false ∧ asString .movsb ≠ none) ∧ base.ctx.rep = none := by decide +kernel

/-- What reading came to: the opcode of the instruction read, or the unknown one. -/
def came (r : ReadResult) : Bool × Byte :=
  match r with
  | .instr op _ _ => (true, op)
  | .unknown op _ => (false, op)
  | .stopped _ => (false, 0)

/-- A call that reads an instruction, and one that comes to an unknown opcode, from a state with nothing in the way. -/
theorem witness_PrefixRead_advance : (let s := code [0x2E, 0x90] base
    s.halted = false ∧ s.atBreakpoint = false ∧ came (s.begin.readInstr prefixLimit 0) = (true, 0x90)) ∧
    (let s := code [0x2E, 0x0F] base
     s.halted = false ∧ s.atBreakpoint = false ∧ came (s.begin.readInstr prefixLimit 0) = (false, 0x0F)) := by decide +kernel

theorem witness_PrefixRows : asSegPrefix .segDs = some .ds ∧ asRepPrefix .repne = some .repne := by decide

/-- A first byte that matches no row; one after a prefix; a repeat prefix before an opcode that is no string instruction. -/
theorem witness_UnknownRewinds :
    (let s := code [0x0F] base
     s.halted = false ∧ s.atBreakpoint = false ∧ s.agenda = [] ∧ 0 < prefixLimit ∧ (∀ b ∈ s.window 0, b ∈ prefixBytes) ∧
      decode ((s.consume 0).window maxLength) = .unknown 0x0F ∧ came (s.begin.readInstr prefixLimit 0) = (false, 0x0F)) ∧
    (let s := code [0x26, 0x0F] base
     s.halted = false ∧ s.atBreakpoint = false ∧ s.agenda = [] ∧ 1 < prefixLimit ∧ (∀ b ∈ s.window 1, b ∈ prefixBytes) ∧
      decode ((s.consume 1).window maxLength) = .unknown 0x0F) ∧
    (let s := code [0xF3, 0x2E, 0x90] base
     s.halted = false ∧ s.atBreakpoint = false ∧ s.agenda = [] ∧ 2 < prefixLimit ∧ (∀ b ∈ s.window 2, b ∈ prefixBytes) ∧
      decode ((s.consume 2).window maxLength) = .ok .nop [0, 0, 0, 0, 0] ∧ Instr.nop.isPrefix = false ∧
      asString .nop = none ∧ 0xF3 ∈ s.window 2) := by decide +kernel

/-- n bytes 26 in memory from an address up. -/
def filled : Nat → Nat → List Host.Cell
  | _, 0 => []
  | a, n + 1 => (a, 0x26) :: filled (a + 1) n

theorem readMem_filled (n a x : Nat) (h1 : a ≤ x) (h2 : x < a + n) : readMem (filled a n) x = 0x26 := by
  induction n generalizing a with
  | zero => omega
  | succ n ih =>
    rw [filled, readMem]
    split
    · rfl
    · exact ih (a + 1) (by omega) (by omega)

/-- The whole segment of the code is ES: prefixes, so the first 65,536 bytes read are. -/
theorem witness_UnknownRewinds_limit : let s := { base with mem := filled 0x10000 0x10000 }
    s.halted = false ∧ s.atBreakpoint = false ∧ s.agenda = [] ∧ ∀ b ∈ s.window prefixLimit, b ∈ prefixBytes := by
  refine ⟨rfl, rfl, rfl, ?_⟩
  have all : ∀ (n : Nat) (s : State), s.queue.items = [] → s.seg .cs = 0x1000 → s.mem = filled 0x10000 0x10000 →
      ∀ b ∈ s.window n, b = 0x26 := by
    intro n
    induction n with
    | zero => intro s _ _ _ b hb; simp [State.window] at hb
    | succ n ih =>
      intro s hq hc hm b hb
      have hf : s.fetchByte = (s.nextByte, { s with queue := ⟨(s.queue.head + 1) % 4, []⟩, pc := s.pc + 1 }) := by
        simp [State.fetchByte, BoundedQueue.pop, hq]
      rw [State.window, hf, List.mem_cons] at hb
      rcases hb with rfl | hb
      · have hp : (phys 0x1000 s.pc).toNat = 0x10000 + s.pc.toNat := by
          have := s.pc.isLt
          simp [phys, BitVec.toNat_add, BitVec.toNat_setWidth]
          omega
        rw [State.nextByte, State.memByte, hc, hm, hp]
        exact readMem_filled _ _ _ (by omega) (by have := s.pc.isLt; omega)
      · exact ih { s with queue := ⟨(s.queue.head + 1) % 4, []⟩, pc := s.pc + 1 } rfl hc hm b hb
  intro b hb
  rw [all prefixLimit _ rfl rfl rfl b hb]
  decide

theorem witness_HaltAndBreakpoint :
    (let s := { base with halted := true, nmiLatched := true }
     Memory.wf s.mem = true ∧ s.halted = true ∧ s.nmiLatched = true) ∧
    (let s := flagged 0xF202 { base with halted := true, intr := true }
     Memory.wf s.mem = true ∧ s.halted = true ∧ s.nmiLatched = false ∧ s.intr = true ∧ s.flag .ifl = true) ∧
    (let s := { base with halted := true, intr := true }
     Memory.wf s.mem = true ∧ s.halted = true ∧ s.nmiLatched = false ∧ (s.intr = false ∨ s.flag .ifl = false)) ∧
    (let s := code [0x90] { base with breakpoints := [0x10000] }
     let h : State := { s with bpSkip := true, reply := .breakpoint }
     Memory.wf s.mem = true ∧ s.halted = false ∧ s.bpSkip = false ∧
      phys (s.seg .cs) (s.pc - BitVec.ofNat 16 s.queue.items.length) ∈ s.breakpoints ∧
      decode (s.window maxLength) = .ok .nop [0, 0, 0, 0, 0] ∧ Instr.nop.isPrefix = false ∧
      (match exec .nop (h.begin.consume 1) with
        | .next _ => true
        | _ => false) = true) := by decide +kernel

theorem witness_BoundaryOrder : Memory.wf base.mem = true ∧
    { base with inhibit := true }.inhibit = true ∧
    (let s := { base with nmiLatched := true }
     s.inhibit = false ∧ s.nmiLatched = true) ∧
    (let s := flagged 0xF202 { base with intr := true }
     s.inhibit = false ∧ s.nmiLatched = false ∧ s.intr = true ∧ s.flag .ifl = true) ∧
    (let s := { base with intr := true, ctx := { base.ctx with tfStart := true } }
     s.inhibit = false ∧ s.nmiLatched = false ∧ (s.intr = false ∨ s.flag .ifl = false) ∧ s.ctx.tfStart = true ∧
      s.ctx.entered = false) ∧
    (base.inhibit = false ∧ base.nmiLatched = false ∧ base.intr = false ∧ base.ctx.tfStart = false) := by decide +kernel

theorem witness_StepKeepsInv : base.Inv ∧ sees (fun t => t.ip) base = some 2 ∧
    sees State.reply { base with agenda := [.readBytes 0 1] } = some (.bytes [0]) := by
  refine ⟨⟨by decide, rfl, by decide, by decide, by decide, ?_, rfl, by decide⟩, by decide +kernel, by decide +kernel⟩
  intro f hf
  simp [base, State.reset, State.construct, Device.initial] at hf
  cases hf
  simp [Fdc.Inv, Fdc.initial]

/-- A controller given in the middle of a command. -/
theorem witness_ResetValues : let f : Fdc := { fdc0 with phase := .command, active := some ⟨3, .specify, 2, []⟩, dor := 0x1C }
    ([.fdc f] : List Device)[0]? = some (.fdc f) := rfl

theorem witness_OperandAddress : (within (some .es) none base).ctx.ovr = some .es ∧ base.ctx.ovr = none := by decide

theorem witness_MemoryAccess : Memory.wf base.mem = true ∧ Memory.wf (base.write16 0x2000 0xFFFF 0x1234).mem = true := by
  decide +kernel

theorem witness_RegisterHalves : Reg8.ah ≠ Reg8.al := by decide

theorem witness_AluBytes : asAlu8 (.cmpEbIb82 (.mem (.direct 0xFFFF)) 1) = some (.cmp, .mem (.direct 0xFFFF), .imm 1) ∧
    asAlu8 (.addGbEb .ah (.reg .al)) = some (.add, .reg .ah, .place (.reg .al)) ∧ Memory.wf base.mem = true := by decide

theorem witness_AluWords : asAlu16 (.sbbEwIbSx (.mem (.direct 0xFFFF)) 0xFF) =
      some (.sbb, .mem (.direct 0xFFFF), .imm 0xFFFF) ∧ Memory.wf base.mem = true := by decide

theorem witness_TestSetsFlags : asTest8 (.testAlIb 0x80) = some (.reg .al, .imm 0x80) ∧
    asTest16 (.testEwGw (.reg .sp) .di) = some (.reg .sp, .place (.reg .di)) := by decide

theorem witness_IncDecKeepCarry : asIncDec8 (.incEb (.reg .bh)) = some (.add, .reg .bh) ∧
    asIncDec16 (.decR16 .sp) = some (.sub, .reg .sp) ∧ Memory.wf base.mem = true := by decide

theorem witness_NegNot : Memory.wf base.mem = true := by decide

/-- The largest dividends that DIV completes with, and the least and greatest quotients of IDIV. -/
theorem witness_Quotients :
    (let s := divides 0 0x01FF 2
     s.at8 (s.loc (.reg .bl)) ≠ 0 ∧ (s.reg16 .ax).toNat < 256 * (s.at8 (s.loc (.reg .bl))).toNat) ∧
    (let s := divides 1 0xFFFF 2
     s.at16 (s.loc (.reg .bx)) ≠ 0 ∧ s.dxAx.toNat < 65536 * (s.at16 (s.loc (.reg .bx))).toNat) ∧
    (∃ q r : Int, let s := divides 0 0xFF01 2
     let d := (s.at8 (s.loc (.reg .bl))).toInt
     (s.reg16 .ax).toInt = d * q + r ∧ r.natAbs < d.natAbs ∧ (0 ≤ r ∨ (s.reg16 .ax).toInt < 0) ∧
      (r ≤ 0 ∨ 0 ≤ (s.reg16 .ax).toInt) ∧ -127 ≤ q ∧ q ≤ 127) ∧
    (∃ q r : Int, let s := divides 0 0x7FFF 1
     let d := (s.at16 (s.loc (.reg .bx))).toInt
     s.dxAx.toInt = d * q + r ∧ r.natAbs < d.natAbs ∧ (0 ≤ r ∨ s.dxAx.toInt < 0) ∧ (r ≤ 0 ∨ 0 ≤ s.dxAx.toInt) ∧
      -32767 ≤ q ∧ q ≤ 32767) :=
  ⟨by decide +kernel, by decide +kernel, ⟨-127, -1, by decide +kernel⟩, ⟨32767, 0, by decide +kernel⟩⟩

/-- A divisor 0, and the first dividend whose quotient is out of range, for each of the four. -/
theorem witness_DivideErrors : Memory.wf base.mem = true ∧
    base.at8 (base.loc (.reg .bl)) = 0 ∧ base.at16 (base.loc (.reg .bx)) = 0 ∧
    (let s := divides 0 0x0200 2
     256 * (s.at8 (s.loc (.reg .bl))).toNat ≤ (s.reg16 .ax).toNat) ∧
    (let s := divides 2 0 2
     65536 * (s.at16 (s.loc (.reg .bx))).toNat ≤ s.dxAx.toNat) ∧
    (let s := divides 0 0xFF80 1
     128 * (s.at8 (s.loc (.reg .bl))).toInt.natAbs ≤ (s.reg16 .ax).toInt.natAbs) ∧
    (let s := divides 0xFFFF 0x8000 1
     32768 * (s.at16 (s.loc (.reg .bx))).toInt.natAbs ≤ s.dxAx.toInt.natAbs) := by decide +kernel

/-- AL of DAA for each combination of the two conditions, at the edges: 09 neither, 0A the first, A0 the second, 9A both. -/
theorem witness_DecimalAdjust :
    ([0x09, 0x0A, 0xA0, 0x9A].map (fun v : Word => let s := base.setReg16 .ax v
      (decide (9 < (s.reg8 .al).toNat % 16 ∨ s.flag .af = true),
        decide (0x99 < (s.reg8 .al).toNat ∨ s.flag .cf = true)))) =
    [(false, false), (true, false), (false, true), (true, true)] := by decide +kernel

theorem witness_AsciiMultiplyDivide : (1 : Byte) ≠ 0 := by decide

/-- A count of 0, of 1 and of 255, and the two kinds of operation. -/
theorem witness_ShiftBytes : asShift8 (.shlEb1 (.reg .al)) = some (.shl, .reg .al, false) ∧
    asShift8 (.rcrEbCl (.mem (.direct 0))) = some (.rcr, .mem (.direct 0), true) ∧ Memory.wf base.mem = true ∧
    base.shiftCount true = 0 ∧ base.shiftCount false = 1 ∧ (base.setReg16 .cx 0xFF).shiftCount true = 255 ∧
    ShiftOp.shl.isShift = true := by decide

theorem witness_ShiftWords : asShift16 (.sarEw1 (.reg .ax)) = some (.sar, .reg .ax, false) ∧
    asShift16 (.rolEwCl (.mem (.direct 0xFFFF))) = some (.rol, .mem (.direct 0xFFFF), true) ∧ Memory.wf base.mem = true ∧
    base.shiftCount true = 0 ∧ base.shiftCount false = 1 ∧ (base.setReg16 .cx 0xFF).shiftCount true = 255 ∧
    ShiftOp.sar.isShift = true := by decide

theorem witness_Moves : asMove8 (.movObAl 0xFFFF) = some (.mem (.direct 0xFFFF), .place (.reg .al)) ∧
    asMove16 (.movEwSw (.reg .sp) .cs) = some (.reg .sp, .seg .cs) ∧ Memory.wf base.mem = true := by decide

theorem witness_SegmentLoads : asLoadSeg (.movSsEw (.reg .ax)) = some (.ss, .reg .ax) ∧ asPopSeg .popDs = some .ds := by decide

theorem witness_Pushes : Memory.wf base.mem = true ∧ asPush (.pushR16 .sp) = some (.place (.reg .sp)) ∧
    asPush .pushCs = some (.seg .cs) := by decide

theorem witness_Pops : Memory.wf base.mem = true ∧ asPop (.popR16 .sp) = some (.reg .sp) ∧
    asPop (.popEw (.mem (.base .bp (.d8 0)))) = some (.mem (.base .bp (.d8 0))) ∧
    (.mem (.base .bp (.d8 0)) : Rm16) ≠ .reg .sp := by decide

theorem witness_Exchanges : Memory.wf base.mem = true := by decide

theorem witness_StringMoves : Memory.wf base.mem = true ∧ base.ctx.rep = none := by decide

theorem witness_StringCompares : base.ctx.rep = none := by decide

/-- A count of 0; an end by ZF; an end by the count; a suspension; another turn. -/
theorem witness_RepeatUnrolls : asString .scasb = some (1, true) ∧ asString .lodsw = some (2, false) ∧
    (within none (some .repne) base).ctx.rep = some .repne ∧ (within none (some .repne) base).reg16 .cx = 0 ∧
    (let once (i : Instr) (s : State) : Option (Bool × Word) := match exec i s with
        | .next u => some (u.flag .zf, u.reg16 .cx - 1)
        | _ => none
      once .scasb (base.setReg16 .cx 2) = some (true, 1) ∧ once .lodsw (base.setReg16 .cx 1) = some (false, 0) ∧
      once .lodsw (base.setReg16 .cx 2) = some (false, 1) ∧ once .lodsw { base.setReg16 .cx 2 with nmiLatched := true } =
        some (false, 1)) := by decide +kernel

theorem witness_RepStosFills : let s := within none (some .repe) (base.setReg16 .cx 3)
    Memory.wf s.mem = true ∧ s.ctx.rep = some .repe ∧ s.flag .df = false ∧ s.nmiLatched = false ∧ s.intr = false ∧
      s.ctx.tfStart = false := by decide +kernel

theorem witness_Calls : Memory.wf base.mem = true := by decide

/-- JLE: taken by ZF, taken by SF ≠ OF, and not taken. -/
theorem witness_ConditionalJumps :
    asJcc (.jleJb 0x80) = some (fun _ _ z n o => z = true ∨ n ≠ o, 0x80) ∧
    (flagged 0xF042 base).flag .zf = true ∧
    (flagged 0xF082 base).flag .sf ≠ (flagged 0xF082 base).flag .ofl ∧
    ¬((flagged 0xF882 base).flag .zf = true ∨ (flagged 0xF882 base).flag .sf ≠ (flagged 0xF882 base).flag .ofl) :=
  ⟨rfl, by decide, by decide, by decide⟩

/-- CX = 1 ends a loop and CX = 0 and 2 do not; ZF both ways. -/
theorem witness_Loops : (base.setReg16 .cx 1).reg16 .cx = 1 ∧ (base.setReg16 .cx 2).reg16 .cx ≠ 1 ∧ base.reg16 .cx ≠ 1 ∧
    base.reg16 .cx = 0 ∧ base.flag .zf = false ∧ (flagged 0xF042 base).flag .zf = true := by decide

theorem witness_SoftwareInterrupts : Memory.wf base.mem = true ∧ base.flag .ofl = false ∧
    (flagged 0xF802 base).flag .ofl = true := by decide

theorem witness_InterruptRoundTrip : Memory.wf base.mem = true ∧ flagsFixed base.flags ∧
    flagsFixed (flagged 0xFFD7 base).flags := ⟨by decide, rfl, rfl⟩

theorem witness_FlagInstructions : flagsFixed (flagged 0xF0D7 base).flags ∧
    (Config.stiShadow = true ∨ Config.stiShadow = false) := ⟨rfl, by cases Config.stiShadow <;> simp⟩

theorem witness_HaltWaitEscape : base.test = true ∧ { base with test := false }.test = false := by decide

/-- Port 60 is no device's; ports 3F4 and 3F2 are the first device's, which drives a byte on the one and none on the other. -/
theorem witness_PortDispatch : (∀ d ∈ base.devices, (0x60 : Word) ∉ d.ports) ∧
    (∃ d, base.devices = [] ++ d :: [] ∧ (∀ p, ∀ e ∈ ([] : List Device), p ∉ e.ports) ∧ (0x3F4 : Word) ∈ d.ports ∧
      (d.readByte 0x3F4).1 = some 0x80 ∧ (0x3F2 : Word) ∈ d.ports ∧ (d.readByte 0x3F2).1 = none) := by
  refine ⟨by decide, _, rfl, by simp, by decide, rfl, by decide, rfl⟩

/-- From None and from Result, a command without a parameter and one with eight. -/
theorem witness_FdcProtocol : fdc0.Inv ∧ fdc0.phase = .none ∧
    (let f : Fdc := { fdc0 with phase := .result, active := some ⟨8, .senseInterruptStatus, 0, []⟩ }
     f.Inv ∧ f.phase = .result) ∧
    fdcCommand ((0x08 : Byte).toNat % 32) = some (.senseInterruptStatus, 0) ∧ ([] : List Byte).length = 0 ∧
    fdcCommand ((0xE6 : Byte).toNat % 32) = some (.readData, 8) ∧ [0, 0, 0, 1, 2, 9, 0x2A, (0xFF : Byte)].length = 8 := by
  simp [Fdc.Inv, fdc0]; decide

theorem witness_FdcRegisters :
    (let f : Fdc := { fdc0 with phase := .result, result := [0x20, 0x00] }
     f.phase = .result ∧ f.result = 0x20 :: [0x00]) ∧
    (let f : Fdc := { fdc0 with phase := .result }
     f.phase = .result ∧ f.result = []) ∧
    ({ fdc0 with phase := .command } : Fdc).phase = .command ∧ fdc0.phase = .none ∧
    fdcCommand ((0x00 : Byte).toNat % 32) = none ∧ sectorSize 3 = some 1024 ∧ sectorSize 4 = none ∧
    (∃ v : Byte, v.getLsbD 2 = Config.dorResetLevel) ∧ (∃ v : Byte, v.getLsbD 2 ≠ Config.dorResetLevel) := by
  refine ⟨by decide, by decide, by decide, by decide, by decide, by decide, by decide, ?_, ?_⟩ <;>
    cases Config.dorResetLevel
  exacts [⟨0, by decide⟩, ⟨4, by decide⟩, ⟨4, by decide⟩, ⟨0, by decide⟩]

/-- Empty, one element, full; four bytes fit an empty queue of four, five do not. -/
theorem witness_QueueLaws : (BoundedQueue.empty : BoundedQueue Byte 4).wf = true ∧
    (BoundedQueue.empty : BoundedQueue Byte 4).items = [] ∧
    (let q : BoundedQueue Byte 4 := ⟨3, [1, 2, 3, 4]⟩
     q.wf = true ∧ q.items.length = 4 ∧ 4 < q.items.length + [(5 : Byte)].length) ∧
    (let q : BoundedQueue Byte 4 := ⟨3, [1, 2]⟩
     q.wf = true ∧ q.items.length < 4 ∧ q.items = 1 :: [2] ∧ q.items = [1] ++ [2] ∧ q.items.length + [(3 : Byte), 4].length ≤ 4) := by
  decide

theorem witness_CycleEngine : base.tstate = .idle ∧ { base with tstate := .t0 }.tstate = .t0 ∧
    { base with tstate := .t1 }.tstate = .t1 ∧ { base with tstate := .t2 }.tstate = .t2 ∧
    { base with tstate := .t3 }.tstate = .t3 ∧ base.queue.items.length ≠ 4 ∧ base.deliveryPending = false ∧
    (let s := { base with tstate := .t4, deliveryPending := true, queue := ⟨0, [1, 2, 3, 4]⟩ }
     s.tstate = .t4 ∧ s.deliveryPending = true ∧ s.queue.items.length = 4) ∧
    (let s := { base with tstate := .t4 }
     s.tstate = .t4 ∧ s.deliveryPending = false) := by decide

theorem witness_HostRegisters : Reg16.bx ≠ Reg16.ax ∧ Seg.ds ≠ Seg.cs ∧ Seg.es ≠ Seg.ds := by decide

/-- One byte at the last address, two from there, a word at the last two, and addresses past the end. -/
theorem witness_HostMemory : Memory.wf base.mem = true ∧ [(0x12 : Byte)] ≠ [] ∧ (0xFFFFF : DWord).toNat + 1 ≤ 2 ^ 20 ∧
    2 ^ 20 < (0xFFFFF : DWord).toNat + 2 ∧ (0xFFFFE : DWord).toNat + 1 < 2 ^ 20 ∧ 2 ^ 20 ≤ (0x100000 : DWord).toNat ∧
    2 ^ 20 ≤ (0xFFFFF : DWord).toNat + 1 ∧ 1 ≠ 0 := by decide

theorem witness_HostReset : base.devices[0]? = some (.fdc (match base.devices with | [.fdc f] => f | _ => fdc0)) := rfl

end Sys2Proof.Tests
end

section
/-! The invariant's parts: what keeps the reserved bits of FLAGS, the queue's bounds and the floppy controller's record
(10_state.md R29; 40_pipeline.md R151; 60_exceptions.md R550). -/

namespace Sys2Proof.Machine

/-! ## FLAGS -/

/-- No flag is among the reserved bits. -/
theorem Flag.twoPow_bit_and_reserved (f : Flag) : BitVec.twoPow 16 f.bit &&& 0xF02A = 0 := by cases f <;> rfl

/-- The fixed values of the reserved bits survive the clearing of any flag. -/
theorem Flag.fixed_and_not_twoPow_bit (f : Flag) : (0xF002 : Word) &&& ~~~(BitVec.twoPow 16 f.bit) = 0xF002 := by
  cases f <;> rfl

/-- The FLAGS of reset (10_state.md R40). -/
theorem flagsFixed_reset : flagsFixed 0xF002 := by rw [flagsFixed]; rfl

theorem State.flagsFixed_setFlag {s : State} (h : flagsFixed s.flags) (f : Flag) (b : Bool) :
    flagsFixed (s.setFlag f b).flags := by
  rw [flagsFixed] at h ⊢
  cases b
  · calc (s.flags &&& ~~~(BitVec.twoPow 16 f.bit)) &&& 0xF02A
        = (s.flags &&& 0xF02A) &&& ~~~(BitVec.twoPow 16 f.bit) := by ac_rfl
      _ = 0xF002 := by rw [h, Flag.fixed_and_not_twoPow_bit]
  · calc (s.flags ||| BitVec.twoPow 16 f.bit) &&& 0xF02A
        = (s.flags &&& 0xF02A) ||| (BitVec.twoPow 16 f.bit &&& 0xF02A) := BitVec.and_or_distrib_right ..
      _ = 0xF002 := by rw [h, Flag.twoPow_bit_and_reserved]; rfl

/-- A 16-bit write of FLAGS stores the fixed values, whatever the word (10_state.md R29). -/
theorem flagsFixed_fixFlags (v : Word) : flagsFixed (fixFlags v) := by
  rw [flagsFixed, fixFlags, BitVec.and_or_distrib_right, BitVec.and_assoc]
  exact (congrArg (· ||| (0xF002 : Word)) (BitVec.and_zero)).trans rfl

/-- The word SAHF puts together of FLAGS and AH (41_data_transfer.md R226). -/
theorem flagsFixed_sahf {w : Word} (h : flagsFixed w) (a : Byte) :
    flagsFixed ((w &&& 0xFF00) ||| zext16 (a &&& 0xD5) ||| 0x0002) := by
  have high : (w &&& 0xFF00) &&& 0xF02A = 0xF000 := by
    calc (w &&& 0xFF00) &&& 0xF02A = (w &&& 0xF02A) &&& 0xFF00 := by ac_rfl
      _ = 0xF000 := by rw [show w &&& 0xF02A = 0xF002 from h]; rfl
  have low : zext16 (a &&& 0xD5) &&& 0xF02A = 0 := by
    rw [zext16, BitVec.setWidth_and, BitVec.and_assoc]; exact BitVec.and_zero
  rw [flagsFixed, BitVec.and_or_distrib_right, BitVec.and_or_distrib_right, high, low]
  rfl

/-! ## The queue -/

section
variable {α : Type} {n : Nat} {q : BoundedQueue α n}

theorem BoundedQueue.wf_iff : q.wf = true ↔ q.head < n ∧ q.items.length ≤ n := by simp [BoundedQueue.wf]

theorem BoundedQueue.wf_push {q' : BoundedQueue α n} {v : α} (h : q.wf = true) (e : q.push v = some q') :
    q'.wf = true := by
  rw [BoundedQueue.push] at e
  split at e
  · cases e
  · next room =>
    obtain rfl := Option.some.inj e
    simp only [BoundedQueue.wf_iff, BoundedQueue.full, BoundedQueue.size, beq_iff_eq] at h room ⊢
    exact ⟨h.1, by rw [List.length_append, List.length_singleton]; omega⟩

theorem BoundedQueue.wf_pop {q' : BoundedQueue α n} {v : α} (h : q.wf = true) (e : q.pop = some (v, q')) :
    q'.wf = true := by
  rw [BoundedQueue.pop] at e
  split at e
  · cases e
  · next items =>
    cases e
    rw [BoundedQueue.wf_iff, items, List.length_cons] at h
    exact BoundedQueue.wf_iff.2 ⟨Nat.mod_lt _ (by omega), by dsimp only; omega⟩

theorem BoundedQueue.wf_drainPart (k : Nat) (h : q.wf = true) : (q.drainPart k).2.wf = true := by
  induction k generalizing q with
  | zero => exact h
  | succ k ih =>
    rw [BoundedQueue.drainPart]
    split
    · exact h
    · next e => exact ih (BoundedQueue.wf_pop h e)

end

/-! ## The floppy controller -/

section
variable {f : Fdc}

theorem Fdc.initial_inv : Fdc.initial.Inv := by simp [Fdc.Inv, Fdc.initial]

theorem Fdc.Inv.toNone : f.toNone.Inv := by simp [Fdc.Inv, Fdc.toNone]

/-- What stands beside the protocol's state is free. -/
theorem Fdc.Inv.congr {g : Fdc} (h : f.Inv) (phase : g.phase = f.phase) (active : g.active = f.active)
    (result : g.result = f.result) : g.Inv := by rwa [Fdc.Inv, phase, active, result]

theorem Fdc.Inv.select (h : f.Inv) (hp : f.phase = .none) (v : Byte) : (f.select v).Inv := by
  rw [Fdc.select]
  split
  · next count _ =>
    have hr : f.result = [] := h.2.2 (by rw [hp]; decide)
    by_cases hc : 0 < count
    · simp [Fdc.Inv, hr, hc]
    · simpa [Fdc.Inv, hr, hc] using Nat.eq_zero_of_not_pos hc
  · exact h.congr rfl rfl rfl

theorem Fdc.Inv.execute (h : f.Inv) (hp : f.phase = .execution) : f.execute.Inv := by
  rw [Fdc.execute]
  split
  · next a ha =>
    have hrem : ¬ 0 < a.remaining := fun r => by have := (h.2.1 a ha).2 r; rw [hp] at this; cases this
    simpa [Fdc.Inv, ha] using hrem
  · exact h

theorem Fdc.Inv.parameter (h : f.Inv) (hp : f.phase = .command) (v : Byte) : (f.parameter v).Inv := by
  rw [Fdc.parameter]
  split
  · next a _ =>
    have hr : f.result = [] := h.2.2 (by rw [hp]; decide)
    by_cases hc : a.remaining - 1 = 0
    · simp [Fdc.Inv, hr, hc]
    · simpa [Fdc.Inv, hr, hc] using Nat.pos_of_ne_zero hc
  · exact h

theorem Fdc.Inv.writeData (h : f.Inv) (v : Byte) : (f.writeData v).Inv := by
  rw [Fdc.writeData]
  split
  · next hp => exact h.select hp v
  · next hp => exact h.parameter hp v
  · next hp => exact h.execute hp
  · exact Fdc.Inv.toNone.select rfl v

theorem Fdc.Inv.readData (h : f.Inv) : f.readData.2.Inv := by
  rw [Fdc.readData]
  split
  · exact h
  · exact h
  · next hp => exact h.execute hp
  · next hp =>
    split
    · exact ⟨h.1, h.2.1, fun n => absurd hp n⟩
    · exact h

theorem Fdc.Inv.writeDor (h : f.Inv) (v : Byte) : (f.writeDor v).Inv := by
  rw [Fdc.writeDor]
  split
  · exact Fdc.Inv.toNone
  · exact h.congr rfl rfl rfl

theorem Fdc.Inv.readByte (h : f.Inv) (p : Word) : (f.readByte p).2.Inv := by
  rw [Fdc.readByte]
  split
  · exact h
  · split
    · exact h.readData
    · exact h

theorem Fdc.Inv.writeByte (h : f.Inv) (p : Word) (v : Byte) : (f.writeByte p v).Inv := by
  rw [Fdc.writeByte]
  split
  · exact h.writeDor v
  · split
    · exact h.writeData v
    · exact h

theorem Fdc.Inv.reset : f.reset.Inv := Fdc.Inv.toNone (f := f).congr rfl rfl rfl

end

/-! ## The devices -/

/-- A device that is a floppy controller meets the controller's invariant. -/
def Device.Inv : Device → Prop
  | .fdc f => f.Inv
  | .other _ _ _ => True

theorem devices_inv_iff {ds : List Device} : (∀ d ∈ ds, d.Inv) ↔ ∀ f, Device.fdc f ∈ ds → f.Inv := by
  constructor
  · exact fun h f hf => h _ hf
  · intro h d hd
    cases d with
    | fdc f => exact h f hd
    | other => trivial

theorem Device.initial_inv (d : Device) : d.initial.Inv := by
  cases d with
  | fdc => exact Fdc.initial_inv
  | other => trivial

theorem Device.reset_inv (d : Device) : d.reset.Inv := by
  cases d with
  | fdc => exact Fdc.Inv.reset
  | other => trivial

section
variable {d : Device}

theorem Device.Inv.readByte (h : d.Inv) (p : Word) : (d.readByte p).2.Inv := by
  cases d with
  | fdc => exact Fdc.Inv.readByte h p
  | other => trivial

theorem Device.Inv.writeByte (h : d.Inv) (p : Word) (v : Byte) : (d.writeByte p v).Inv := by
  cases d with
  | fdc => exact Fdc.Inv.writeByte h p v
  | other => trivial

theorem Device.Inv.advance (h : d.Inv) (n : Nat) : (d.advance n).Inv := by
  cases d with
  | fdc => exact h
  | other => trivial

end

/-- What every device meets and an access keeps, every device meets after the access to a port's owner. -/
theorem forall_mem_onOwner {P : Device → Prop} {g : Device → Device} (p : Word) {ds : List Device}
    (hg : ∀ d, P d → P (g d)) (h : ∀ d ∈ ds, P d) : ∀ d ∈ onOwner p g ds, P d := by
  induction ds with
  | nil => exact h
  | cons d ds ih =>
    rw [List.forall_mem_cons] at h
    rw [onOwner]
    split
    · exact List.forall_mem_cons.2 ⟨hg d h.1, h.2⟩
    · exact List.forall_mem_cons.2 ⟨h.1, ih h.2⟩

end Sys2Proof.Machine
end

section
/-! The part of the invariant that holds at every moment, also while an instruction runs, and that each shared operation
keeps it. -/

namespace Sys2Proof.Machine

/-- The invariant but for the context, which is idle only between calls (10_state.md R29, R32, R34; 20_memory.md R60;
40_pipeline.md R151, R170; 60_exceptions.md R550). -/
structure State.Sound (s : State) : Prop where
  mem : Memory.wf s.mem = true
  flags : flagsFixed s.flags
  queue : s.queue.wf = true
  mirror : s.lastEa = s.latch.setWidth 32
  pending : s.deliveryPending = true → s.tstate = .t4
  devices : ∀ d ∈ s.devices, d.Inv
  breakpoints : s.breakpoints.Nodup

theorem State.inv_iff {s : State} : s.Inv ↔ s.Sound ∧ s.ctx = Ctx.idle := by
  constructor
  · exact fun h => ⟨{ h with devices := devices_inv_iff.2 h.fdc }, h.ctx⟩
  · exact fun ⟨h, hc⟩ => { h with fdc := devices_inv_iff.1 h.devices, ctx := hc }

namespace State.Sound

/-- Of two sound states the one a condition chooses is sound. -/
theorem ite {c : Prop} [Decidable c] {t u : State} (ht : t.Sound) (hu : u.Sound) : (if c then t else u).Sound := by
  split
  · exact ht
  · exact hu

variable {s : State} (h : s.Sound)
include h

/-! ## One update -/

theorem setReg16 {r : Reg16} {v : Word} : (s.setReg16 r v).Sound := { h with }

theorem setReg8 {r : Reg8} {v : Byte} : (s.setReg8 r v).Sound := h.setReg16

theorem setSeg {g : Seg} {v : Word} : (s.setSeg g v).Sound := by cases g <;> exact { h with }

theorem setFlag {f : Flag} {b : Bool} : (s.setFlag f b).Sound := { h with flags := State.flagsFixed_setFlag h.flags f b }

theorem writeFlags {v : Word} : (State.writeFlags s v).Sound := { h with flags := flagsFixed_fixFlags v }

theorem setHalted {b : Bool} : ({ s with halted := b } : State).Sound := { h with }

theorem setCtx {c : Ctx} : ({ s with ctx := c } : State).Sound := { h with }

theorem draw : s.draw.2.Sound := { h with }

theorem pa {x o : Word} : (s.pa x o).2.Sound := { h with mirror := rfl }

theorem setMemByte {a : Phys} {b : Byte} : (s.setMemByte a b).Sound := { h with mem := State.setMemByte_wf s a b h.mem }

theorem flush : s.flush.Sound := { h with
  queue := BoundedQueue.wf_drainPart _ h.queue
  pending := fun p => Bool.noConfusion p }

theorem jump {t : Word} : (s.jump t).Sound := { h.flush with }

theorem farJump {x o : Word} : (s.farJump x o).Sound := h.setSeg.jump

/-! ## Flags and draws -/

theorem drawFlag {f : Flag} : (s.drawFlag f).Sound := h.draw.setFlag

theorem drawFlags {l : List Flag} : (s.drawFlags l).Sound := by
  induction l generalizing s with
  | nil => exact h
  | cons f l ih => exact ih h.drawFlag

section
variable {w : Nat} {a b : BitVec w} {c : Bool}

theorem setSzp : (s.setSzp a).Sound := h.setFlag.setFlag.setFlag

theorem addC : (s.addC a b c).2.Sound := h.setFlag.setFlag.setFlag.setSzp

theorem subB : (s.subB a b c).2.Sound := h.setFlag.setFlag.setFlag.setSzp

theorem logicFlags : (s.logicFlags a).Sound := h.setFlag.setFlag.setSzp.drawFlag

theorem alu {op : AluOp} : (s.alu op a b).2.Sound := by
  cases op with
  | add | adc => exact h.addC
  | sub | cmp | sbb => exact h.subB
  | and | or | xor => exact h.logicFlags

theorem shiftBy {op : ShiftOp} {n : Nat} : (s.shiftBy op n a).2.Sound :=
  have carried := ite (c := n = 1) h.setFlag.setFlag h.setFlag.drawFlag
  ite carried.setSzp.drawFlag carried

end

/-! ## Memory, the stack and interrupts -/

section
variable {x o : Word}

theorem read8 : (s.read8 x o).2.Sound := h.pa

theorem read16 : (s.read16 x o).2.Sound := h.read8.read8

theorem write8 {v : Byte} : (s.write8 x o v).Sound := h.pa.setMemByte

theorem write16 {v : Word} : (s.write16 x o v).Sound := h.write8.write8

end

theorem push16 {v : Word} : (s.push16 v).Sound := h.setReg16.write16

theorem pop16 : s.pop16.2.Sound := h.read16.setReg16

theorem interrupt {n : Byte} : (s.interrupt n).Sound :=
  h.push16.setFlag.setFlag.push16.push16.read16.read16.setHalted.farJump

theorem raise {n : Byte} : (s.raise n).Sound := h.setCtx.interrupt

theorem interruptReturn : s.interruptReturn.Sound := h.pop16.pop16.pop16.writeFlags.farJump

/-! ## Operands -/

theorem readLoc8 {l : Loc Reg8} : (s.readLoc8 l).2.Sound := by
  cases l with
  | reg => exact h
  | mem => exact h.read8

theorem readLoc16 {l : Loc Reg16} : (s.readLoc16 l).2.Sound := by
  cases l with
  | reg => exact h
  | mem => exact h.read16

theorem writeLoc8 {l : Loc Reg8} {v : Byte} : (s.writeLoc8 l v).Sound := by
  cases l with
  | reg => exact h.setReg8
  | mem => exact h.write8

theorem writeLoc16 {l : Loc Reg16} {v : Word} : (s.writeLoc16 l v).Sound := by
  cases l with
  | reg => exact h.setReg16
  | mem => exact h.write16

theorem readRm8 {e : Rm8} : (s.readRm8 e).2.Sound := h.readLoc8

theorem readRm16 {e : Rm16} : (s.readRm16 e).2.Sound := h.readLoc16

theorem readFar {m : MemOp} : (s.readFar m).2.Sound := h.read16.read16

/-! ## Arithmetic and logic -/

section
variable {op : AluOp} {l : Loc Reg8} {b : Byte}

theorem alu8 : (s.alu8 op l b).Sound := .ite h.readLoc8.alu.writeLoc8 h.readLoc8.alu

theorem test8 : (s.test8 l b).Sound := h.readLoc8.alu

theorem incDec8 {down : Bool} : (s.incDec8 down l).Sound := by
  cases down
  · exact h.readLoc8.addC.setFlag.writeLoc8
  · exact h.readLoc8.subB.setFlag.writeLoc8

theorem neg8 : (s.neg8 l).Sound := h.readLoc8.subB.writeLoc8

theorem not8 : (s.not8 l).Sound := h.readLoc8.writeLoc8

theorem shift8 {op : ShiftOp} {e : Rm8} {n : Nat} : (s.shift8 op e n).Sound := .ite h.readRm8 h.readRm8.shiftBy.writeLoc8

end

section
variable {op : AluOp} {l : Loc Reg16} {b : Word}

theorem alu16 : (s.alu16 op l b).Sound := .ite h.readLoc16.alu.writeLoc16 h.readLoc16.alu

theorem test16 : (s.test16 l b).Sound := h.readLoc16.alu

theorem incDec16 {down : Bool} : (s.incDec16 down l).Sound := by
  cases down
  · exact h.readLoc16.addC.setFlag.writeLoc16
  · exact h.readLoc16.subB.setFlag.writeLoc16

theorem neg16 : (s.neg16 l).Sound := h.readLoc16.subB.writeLoc16

theorem not16 : (s.not16 l).Sound := h.readLoc16.writeLoc16

theorem shift16 {op : ShiftOp} {e : Rm16} {n : Nat} : (s.shift16 op e n).Sound :=
  .ite h.readRm16 h.readRm16.shiftBy.writeLoc16

end

/-! ## Multiplication, division and adjustment -/

theorem drawReg {r : Reg16} : (s.drawReg r).Sound := h.draw.setReg16

theorem mulFlags {b : Bool} : (s.mulFlags b).Sound := h.setFlag.setFlag.drawFlags

theorem setDxAx {v : DWord} : (s.setDxAx v).Sound := h.setReg16.setReg16

theorem divideError8 : s.divideError8.Sound := h.drawReg.drawFlags.raise

theorem divideError16 : s.divideError16.Sound := h.drawReg.drawReg.drawFlags.raise

theorem putQuotient8 {q r : Byte} : (s.putQuotient8 q r).Sound := h.setReg8.setReg8.drawFlags

theorem putQuotient16 {q r : Word} : (s.putQuotient16 q r).Sound := h.setReg16.setReg16.drawFlags

theorem div8 {d : Byte} : (s.div8 d).Sound := .ite h.divideError8 h.putQuotient8

theorem div16 {d : Word} : (s.div16 d).Sound := .ite h.divideError16 h.putQuotient16

theorem idiv8 {d : Byte} : (s.idiv8 d).Sound := .ite h.divideError8 h.putQuotient8

theorem idiv16 {d : Word} : (s.idiv16 d).Sound := .ite h.divideError16 h.putQuotient16

theorem asciiAdjust {al ah : Byte} : (s.asciiAdjust al ah).Sound :=
  (ite (c := s.lowAdjust = true) h.setReg8.setReg8 h).setFlag.setFlag.setReg8.drawFlags

/-! ## Ports -/

theorem ioReadByte {p : Word} : (s.ioReadByte p).2.Sound := by
  have read : ({ s with devices := onOwner p (fun d => (d.readByte p).2) s.devices } : State).Sound :=
    { h with devices := forall_mem_onOwner p (fun _ hd => hd.readByte p) h.devices }
  rw [State.ioReadByte]
  split
  · exact read
  · exact read.draw

theorem ioRead16 {p : Word} : (s.ioRead16 p).2.Sound := h.ioReadByte.ioReadByte

theorem ioWriteByte {p : Word} {b : Byte} : (s.ioWriteByte p b).Sound :=
  { h with devices := forall_mem_onOwner p (fun _ hd => hd.writeByte p b) h.devices }

theorem ioWrite16 {p v : Word} : (s.ioWrite16 p v).Sound := h.ioWriteByte.ioWriteByte

/-! ## Control transfer -/

theorem jumpIf {b : Bool} {d : Byte} : (s.jumpIf b d).Sound := .ite h.jump h

theorem decCx : s.decCx.Sound := h.setReg16

theorem callNear {t : Word} : (s.callNear t).Sound := h.push16.jump

theorem callFar {x o : Word} : (s.callFar x o).Sound := h.push16.push16.farJump

theorem returnNear {k : Word} : (s.returnNear k).Sound := h.pop16.setReg16.jump

theorem returnFar {k : Word} : (s.returnFar k).Sound := h.pop16.pop16.setReg16.farJump

/-! ## Data transfer -/

theorem loadSeg {g : Seg} {e : Rm16} : (s.loadSeg g e).Sound :=
  have loaded := h.readRm16.setSeg
  { loaded with }

theorem pushReg {r : Reg16} : (s.pushReg r).Sound := h.push16

theorem popSeg {g : Seg} : (s.popSeg g).Sound :=
  have popped := h.pop16.setSeg
  { popped with }

theorem loadFar {g : Reg16} {m : MemOp} {x : Seg} : (s.loadFar g m x).Sound := h.readFar.setReg16.setSeg

/-! ## Strings -/

theorem movs8 : s.movs8.Sound := h.read8.write8.setReg16.setReg16

theorem movs16 : s.movs16.Sound := h.read16.write16.setReg16.setReg16

theorem cmps8 : s.cmps8.Sound := h.read8.read8.subB.setReg16.setReg16

theorem cmps16 : s.cmps16.Sound := h.read16.read16.subB.setReg16.setReg16

theorem scas8 : s.scas8.Sound := h.read8.subB.setReg16

theorem scas16 : s.scas16.Sound := h.read16.subB.setReg16

theorem lods8 : s.lods8.Sound := h.read8.setReg8.setReg16

theorem lods16 : s.lods16.Sound := h.read16.setReg16.setReg16

theorem stos8 : s.stos8.Sound := h.write8.setReg16

theorem stos16 : s.stos16.Sound := h.write16.setReg16

/-- A repetition keeps what its element keeps, however it ends (44_string.md R347). -/
theorem repeatString {p : Rep} {compares : Bool} {element : State → State}
    (he : ∀ {u : State}, u.Sound → (element u).Sound) (n : Nat) : (State.repeatString p compares element n s).Sound := by
  induction n generalizing s with
  | zero => exact h
  | succ n ih =>
    have turn := (he h).setReg16 (r := .cx) (v := (element s).reg16 .cx - 1)
    exact .ite turn (.ite turn (.ite turn.jump (ih turn)))

theorem runString {compares : Bool} {element : State → State} (he : ∀ {u : State}, u.Sound → (element u).Sound) :
    (s.runString compares element).Sound := by
  rw [State.runString]
  split
  · exact he h
  · exact h.repeatString he _

end State.Sound

end Sys2Proof.Machine
end

section
/-! Every instruction, the instruction driver and every host call keep the invariant, and construction meets it. -/

namespace Sys2Proof.Machine

/-! ## Instructions -/

/-- Every instruction answers a next state, and keeps what holds at every moment. -/
theorem exec_sound (i : Instr) {s : State} (h : s.Sound) : ∃ t, exec i s = .next t ∧ t.Sound := by
  cases i with
  -- Two operands, a byte.
  | addEbGb | orEbGb | adcEbGb | sbbEbGb | andEbGb | subEbGb | xorEbGb | cmpEbGb
  | addAlIb | orAlIb | adcAlIb | sbbAlIb | andAlIb | subAlIb | xorAlIb | cmpAlIb
  | addEbIb | orEbIb | adcEbIb | sbbEbIb | andEbIb | subEbIb | xorEbIb | cmpEbIb
  | addEbIb82 | adcEbIb82 | sbbEbIb82 | subEbIb82 | cmpEbIb82 => exact ⟨_, rfl, h.alu8⟩
  | addGbEb | orGbEb | adcGbEb | sbbGbEb | andGbEb | subGbEb | xorGbEb | cmpGbEb => exact ⟨_, rfl, h.readRm8.alu8⟩
  -- Two operands, a word.
  | addEwGw | orEwGw | adcEwGw | sbbEwGw | andEwGw | subEwGw | xorEwGw | cmpEwGw
  | addAxIw | orAxIw | adcAxIw | sbbAxIw | andAxIw | subAxIw | xorAxIw | cmpAxIw
  | addEwIw | orEwIw | adcEwIw | sbbEwIw | andEwIw | subEwIw | xorEwIw | cmpEwIw
  | addEwIbSx | adcEwIbSx | sbbEwIbSx | subEwIbSx | cmpEwIbSx => exact ⟨_, rfl, h.alu16⟩
  | addGwEw | orGwEw | adcGwEw | sbbGwEw | andGwEw | subGwEw | xorGwEw | cmpGwEw => exact ⟨_, rfl, h.readRm16.alu16⟩
  -- One operand.
  | testEbGb | testAlIb | testEbIb => exact ⟨_, rfl, h.test8⟩
  | testEwGw | testAxIw | testEwIw => exact ⟨_, rfl, h.test16⟩
  | incEb | decEb => exact ⟨_, rfl, h.incDec8⟩
  | incEw | decEw | incR16 | decR16 => exact ⟨_, rfl, h.incDec16⟩
  | negEb => exact ⟨_, rfl, h.neg8⟩
  | negEw => exact ⟨_, rfl, h.neg16⟩
  | notEb => exact ⟨_, rfl, h.not8⟩
  | notEw => exact ⟨_, rfl, h.not16⟩
  | rolEb1 | rorEb1 | rclEb1 | rcrEb1 | shlEb1 | shrEb1 | sarEb1
  | rolEbCl | rorEbCl | rclEbCl | rcrEbCl | shlEbCl | shrEbCl | sarEbCl => exact ⟨_, rfl, h.shift8⟩
  | rolEw1 | rorEw1 | rclEw1 | rcrEw1 | shlEw1 | shrEw1 | sarEw1
  | rolEwCl | rorEwCl | rclEwCl | rcrEwCl | shlEwCl | shrEwCl | sarEwCl => exact ⟨_, rfl, h.shift16⟩
  -- Multiplication, division and adjustment.
  | mulEb | imulEb => exact ⟨_, rfl, h.readRm8.setReg16.mulFlags⟩
  | mulEw | imulEw => exact ⟨_, rfl, h.readRm16.setDxAx.mulFlags⟩
  | divEb => exact ⟨_, rfl, h.readRm8.div8⟩
  | divEw => exact ⟨_, rfl, h.readRm16.div16⟩
  | idivEb => exact ⟨_, rfl, h.readRm8.idiv8⟩
  | idivEw => exact ⟨_, rfl, h.readRm16.idiv16⟩
  | daa | das => exact ⟨_, rfl, h.setFlag.setFlag.setReg8.setSzp.drawFlag⟩
  | aaa | aas => exact ⟨_, rfl, h.asciiAdjust⟩
  | aamIb => exact ⟨_, rfl, .ite h.divideError8 h.setReg8.setReg8.setSzp.drawFlags⟩
  | aadIb => exact ⟨_, rfl, h.setReg8.setReg8.setSzp.drawFlags⟩
  | cbw | cwd => exact ⟨_, rfl, h.setReg16⟩
  -- Data transfer.
  | movEbGb | movEbIb => exact ⟨_, rfl, h.writeLoc8⟩
  | movEwGw | movEwIw | movEwSw => exact ⟨_, rfl, h.writeLoc16⟩
  | movGbEb => exact ⟨_, rfl, h.readRm8.setReg8⟩
  | movGwEw => exact ⟨_, rfl, h.readRm16.setReg16⟩
  | movR8Ib | lahf => exact ⟨_, rfl, h.setReg8⟩
  | movR16Iw | leaGwM => exact ⟨_, rfl, h.setReg16⟩
  | movAlOb | xlat => exact ⟨_, rfl, h.read8.setReg8⟩
  | movAxOw => exact ⟨_, rfl, h.read16.setReg16⟩
  | movObAl => exact ⟨_, rfl, h.write8⟩
  | movOwAx => exact ⟨_, rfl, h.write16⟩
  | movEsEw | movSsEw | movDsEw => exact ⟨_, rfl, h.loadSeg⟩
  | lesGwMp | ldsGwMp => exact ⟨_, rfl, h.loadFar⟩
  | xchgEbGb => exact ⟨_, rfl, h.readRm8.writeLoc8.setReg8⟩
  | xchgEwGw => exact ⟨_, rfl, h.readRm16.writeLoc16.setReg16⟩
  | xchgAxR16 => exact ⟨_, rfl, h.setReg16.setReg16⟩
  -- The stack.
  | pushR16 => exact ⟨_, rfl, h.pushReg⟩
  | pushEs | pushCs | pushSs | pushDs | pushf => exact ⟨_, rfl, h.push16⟩
  | pushEw e =>
    cases e with
    | reg => exact ⟨_, rfl, h.pushReg⟩
    | mem => exact ⟨_, rfl, h.readRm16.push16⟩
  | popR16 => exact ⟨_, rfl, h.pop16.setReg16⟩
  | popEs | popSs | popDs => exact ⟨_, rfl, h.popSeg⟩
  | popEw => exact ⟨_, rfl, h.pop16.writeLoc16⟩
  | popf => exact ⟨_, rfl, h.pop16.writeFlags⟩
  -- Strings.
  | movsb => exact ⟨_, rfl, h.runString .movs8⟩
  | movsw => exact ⟨_, rfl, h.runString .movs16⟩
  | cmpsb => exact ⟨_, rfl, h.runString .cmps8⟩
  | cmpsw => exact ⟨_, rfl, h.runString .cmps16⟩
  | scasb => exact ⟨_, rfl, h.runString .scas8⟩
  | scasw => exact ⟨_, rfl, h.runString .scas16⟩
  | lodsb => exact ⟨_, rfl, h.runString .lods8⟩
  | lodsw => exact ⟨_, rfl, h.runString .lods16⟩
  | stosb => exact ⟨_, rfl, h.runString .stos8⟩
  | stosw => exact ⟨_, rfl, h.runString .stos16⟩
  -- Control transfer.
  | joJb | jnoJb | jbJb | jaeJb | jeJb | jneJb | jbeJb | jaJb | jsJb | jnsJb | jpJb | jnpJb | jlJb | jgeJb | jleJb | jgJb
  | jcxzJb | jmpJb => exact ⟨_, rfl, h.jumpIf⟩
  | loopJb | loopeJb | loopneJb => exact ⟨_, rfl, h.decCx.jumpIf⟩
  | jmpJw => exact ⟨_, rfl, h.jump⟩
  | jmpEw => exact ⟨_, rfl, h.readRm16.jump⟩
  | jmpAp => exact ⟨_, rfl, h.farJump⟩
  | jmpMp => exact ⟨_, rfl, h.readFar.farJump⟩
  | callJw => exact ⟨_, rfl, h.callNear⟩
  | callEw => exact ⟨_, rfl, h.readRm16.callNear⟩
  | callAp => exact ⟨_, rfl, h.callFar⟩
  | callMp => exact ⟨_, rfl, h.readFar.callFar⟩
  | ret => exact ⟨_, rfl, h.pop16.jump⟩
  | retIw => exact ⟨_, rfl, h.returnNear⟩
  | retf => exact ⟨_, rfl, h.pop16.pop16.farJump⟩
  | retfIw => exact ⟨_, rfl, h.returnFar⟩
  | intIb | int3 => exact ⟨_, rfl, h.raise⟩
  | into => exact ⟨_, rfl, .ite h.raise h⟩
  | iret => exact ⟨_, rfl, h.interruptReturn⟩
  -- Ports.
  | inAlIb | inAlDx => exact ⟨_, rfl, h.ioReadByte.setReg8⟩
  | inAxIb | inAxDx => exact ⟨_, rfl, h.ioRead16.setReg16⟩
  | outIbAl | outDxAl => exact ⟨_, rfl, h.ioWriteByte⟩
  | outIbAx | outDxAx => exact ⟨_, rfl, h.ioWrite16⟩
  -- Processor control.
  | clc | stc | cmc | cld | std | cli => exact ⟨_, rfl, h.setFlag⟩
  | sti => exact ⟨_, rfl, { h.setFlag (f := .ifl) (b := true) with }⟩
  | sahf => exact ⟨_, rfl, { h with flags := flagsFixed_sahf h.flags _ }⟩
  | hlt => exact ⟨_, rfl, h.setHalted⟩
  | wait => exact ⟨_, rfl, .ite h h.jump⟩
  | esc x y e =>
    cases e with
    | reg => exact ⟨_, rfl, h⟩
    | mem => exact ⟨_, rfl, h.pa⟩
  | segEs | segCs | segSs | segDs | repe | repne => exact ⟨_, rfl, h.setCtx⟩
  | nop | lock => exact ⟨_, rfl, h⟩

/-! ## The queue and the cycle engine -/

section
variable {s : State} (h : s.Sound)
include h

theorem State.Sound.fetchByte : s.fetchByte.2.Sound := by
  have hq := h.queue
  rw [State.fetchByte]
  split
  · next e => exact { h with queue := BoundedQueue.wf_pop hq e }
  · exact { h with queue := BoundedQueue.wf_iff.2 ⟨Nat.mod_lt _ (by decide), Nat.zero_le 4⟩ }

theorem State.Sound.consume {n : Nat} : (s.consume n).Sound := by
  induction n generalizing s with
  | zero => exact h
  | succ n ih => exact ih h.fetchByte

/-- A delivery in T4 gives its byte to the queue, or stays pending in T4 (40_pipeline.md R163). -/
theorem State.Sound.deliver (ht : s.tstate = .t4) : s.deliver.Sound := by
  rw [State.deliver]
  split
  · exact { h with pending := fun _ => ht }
  · next e => exact { h with queue := BoundedQueue.wf_push h.queue e, pending := fun p => Bool.noConfusion p }

/-- Outside T4 no delivery is pending, so that the T-state may become any. -/
theorem State.Sound.setTstate {u : TState} (ht : s.tstate ≠ .t4) : ({ s with tstate := u } : State).Sound :=
  { h with pending := fun p => absurd (h.pending p) ht }

theorem State.Sound.tick : s.tick.Sound := by
  rw [State.tick]
  cases ht : s.tstate with
  | idle | t0 | t1 | t2 => exact h.setTstate (by rw [ht]; decide)
  | t3 => exact (h.setTstate (by rw [ht]; decide)).deliver rfl
  | t4 =>
    dsimp only
    split
    · exact h.deliver ht
    · next idle => exact { h with pending := fun p => absurd p idle }

theorem State.Sound.stepCycle : s.stepCycle.Sound := { h.tick with
  devices := List.forall_mem_map.2 fun d hd => (h.tick.devices d hd).advance 1 }

end

/-! ## advance_instruction -/

/-- Reading an instruction leaves a sound state for it to run in, if one was read; the reading never stops (30_encoding.md
R105). -/
def ReadResult.Sound : ReadResult → Prop
  | .instr _ _ u => u.Sound
  | .unknown _ _ => True
  | .stopped _ => False

theorem State.Sound.readInstr (n : Nat) (b : Byte) {s : State} (h : s.Sound) : (s.readInstr n b).Sound := by
  induction n generalizing b s with
  | zero => trivial
  | succ n ih =>
    rw [State.readInstr]
    split
    · next i rest _ =>
      split
      · obtain ⟨t, e, ht⟩ := exec_sound i (h.consume (n := maxLength - rest.length))
        rw [e]
        exact ih _ ht
      · split
        · trivial
        · exact h.consume
    · trivial
    · trivial

section
variable {s : State} (h : s.Sound)
include h

theorem State.Sound.acceptExternal : s.acceptExternal.Sound :=
  have cleared : ({ s with nmiLatched := false } : State).Sound := { h with }
  .ite cleared.interrupt h.interrupt

theorem State.Sound.boundary : s.boundary.Sound :=
  .ite { h with } (.ite h.acceptExternal (.ite h.interrupt h))

theorem State.Sound.haltStep : s.haltStep.Sound :=
  have taken := (h.setHalted (b := false)).acceptExternal
  .ite { taken with } { h with }

theorem State.Sound.finish_inv : s.finish.Inv := State.inv_iff.2 ⟨{ h.boundary with }, rfl⟩

end

@[simp] theorem State.ctx_interrupt (s : State) (n : Byte) : (s.interrupt n).ctx = s.ctx := by simp [State.interrupt]

@[simp] theorem State.ctx_acceptExternal (s : State) : s.acceptExternal.ctx = s.ctx := by
  rw [State.acceptExternal]; split <;> simp

@[simp] theorem State.ctx_haltStep (s : State) : s.haltStep.ctx = s.ctx := by
  rw [State.haltStep]; split <;> simp

/-- The state in which a call ends meets the invariant, if the call returns. -/
def Called.Inv : Called → Prop
  | .done t => t.Inv
  | _ => True

theorem Called.inv_done {t : State} : (Called.done t).Inv ↔ t.Inv := Iff.rfl

theorem Called.Inv.of_outcome {c : Called} {t : State} (h : c.Inv) (e : c.outcome = .next t) : t.Inv := by
  cases c with
  | done s => cases e; exact h
  | failed r s => cases r <;> cases e
  | fault | refused => cases e

theorem State.Sound.execute {s : State} (h : s.Sound) (op : Byte) (i : Instr) : (s.execute op i).Inv := by
  obtain ⟨t, e, ht⟩ := exec_sound i h
  rw [State.execute, e]
  exact ht.finish_inv

theorem State.Inv.advance {s : State} (h : s.Inv) : s.advance.Inv := by
  obtain ⟨hs, hc⟩ := State.inv_iff.1 h
  rw [State.advance]
  split
  · exact State.inv_iff.2 ⟨hs.haltStep, s.ctx_haltStep.trans hc⟩
  · split
    · exact { h with }
    · have begun : s.begin.Sound := { hs with }
      have read := begun.readInstr prefixLimit 0
      split
      · next e => rw [e] at read; exact read.execute _ _
      · trivial
      · next e => rw [e] at read; exact read.elim

/-! ## The host's calls -/

theorem State.Sound.answer {s : State} (h : s.Sound) (hc : s.ctx = Ctx.idle) (r : Reply) : (s.answer r).Inv :=
  State.inv_iff.2 ⟨{ h with }, hc⟩

theorem State.resetCore_inv {s : State} (h : s.Sound) : s.resetCore.Inv := State.inv_iff.2 ⟨{ h with
  flags := flagsFixed_reset
  queue := rfl
  mirror := rfl
  pending := fun p => Bool.noConfusion p
  devices := List.forall_mem_map.2 fun d _ => d.reset_inv }, rfl⟩

@[simp] theorem State.ctx_deliver (s : State) : s.deliver.ctx = s.ctx := by
  rw [State.deliver]; split <;> rfl

@[simp] theorem State.ctx_stepCycle (s : State) : s.stepCycle.ctx = s.ctx := by
  rw [State.stepCycle, State.tick]
  cases s.tstate with
  | idle | t0 | t1 | t2 => rfl
  | t3 => simp
  | t4 => dsimp only; split <;> simp

@[simp] theorem State.ctx_ioReadByte (s : State) (p : Word) : (s.ioReadByte p).2.ctx = s.ctx := by
  rw [State.ioReadByte]; split <;> rfl

@[simp] theorem State.ctx_ioRead16 (s : State) (p : Word) : (s.ioRead16 p).2.ctx = s.ctx := by simp [State.ioRead16]

theorem State.Sound.hostWriteSeg {s : State} (h : s.Sound) (g : Seg) (v : Word) : (s.hostWriteSeg g v).Sound := by
  cases g with
  | cs => exact h.setSeg.jump
  | es | ss | ds => rw [State.hostWriteSeg]; exact h.setSeg

theorem State.ctx_hostWriteSeg (s : State) (g : Seg) (v : Word) : (s.hostWriteSeg g v).ctx = s.ctx := by
  cases g with
  | cs => exact State.jump_ctx _ _
  | es | ss | ds => rfl

theorem addBreakpoint_nodup {l : List Phys} (h : l.Nodup) (a : Phys) : (addBreakpoint l a).Nodup := by
  rw [addBreakpoint]
  split
  · exact h
  · next absent =>
    refine h.append (List.nodup_singleton a) (List.disjoint_singleton.2 ?_)
    simpa using absent

/-- Every host call keeps the invariant. -/
theorem State.Inv.call {s : State} (h : s.Inv) (c : HostCall) : (s.call c).Inv := by
  obtain ⟨hs, hc⟩ := State.inv_iff.1 h
  cases c with
  | reset => exact Called.inv_done.2 { State.resetCore_inv hs with }
  | stepCycle => exact hs.stepCycle.answer (s.ctx_stepCycle.trans hc) _
  | advance => exact h.advance
  | readReg | readBytes | fetchByte | fetchWord | readLatch | inspectQueue
  | nmiEdge | setIntr | setIntaVector | setTest | diagnosticSummary => exact Called.inv_done.2 { h with }
  | writeGpr => exact hs.setReg16.answer hc _
  | writeSeg g v => exact (hs.hostWriteSeg g v).answer ((s.ctx_hostWriteSeg g v).trans hc) _
  | writeIp => exact hs.jump.answer hc _
  | writeFlags => exact hs.writeFlags.answer hc _
  | writeBytes a bs =>
    rw [State.call]
    split
    · next inside =>
      have room : bs.length = 0 ∨ a.toNat + bs.length ≤ 0x100000 := of_decide_eq_true inside
      refine Called.inv_done.2 { h with mem := ?_ }
      rcases room with empty | room
      · rw [List.length_eq_zero_iff.1 empty]; exact h.mem
      · exact writeBytesAt_wf bs a.toNat s.mem h.mem room
    · exact Called.inv_done.2 { h with }
  | computePhysical => exact hs.pa.answer hc _
  | setBreakpoint a => exact Called.inv_done.2 { h with breakpoints := addBreakpoint_nodup h.breakpoints a }
  | clearBreakpoint => exact Called.inv_done.2 { h with breakpoints := h.breakpoints.filter _ }
  | portRead p word =>
    cases word
    · exact hs.ioReadByte.answer ((s.ctx_ioReadByte p).trans hc) _
    · exact hs.ioRead16.answer ((s.ctx_ioRead16 p).trans hc) _
  | portWrite p word =>
    cases word
    · exact hs.ioWriteByte.answer hc _
    · exact hs.ioWrite16.answer hc _

/-- Settles O14: a step is a host call or `advance_instruction`, each of which keeps the invariant. -/
theorem stepKeepsInv : Obligations.StepKeepsInv := by
  intro s t h e
  rw [step] at e
  split at e
  · exact h.advance.of_outcome e
  · next c rest _ =>
    have left : ({ s with agenda := rest } : State).Inv := { h with }
    exact (left.call c).of_outcome e

end Sys2Proof.Machine
end

section
/-! The state after construction and after the host's reset (10_state.md R40; 70_reset_and_hazards.md R600, R601), and the
halves of the word registers (10_state.md R22). -/

namespace Sys2Proof.Machine

/-- A device of a list a map is applied to, at its place. -/
theorem getElem?_map_fdc {g : Device → Device} {ds : List Device} {k : Nat} {f : Fdc} (h : ds[k]? = some (.fdc f)) :
    (ds.map g)[k]? = some (g (.fdc f)) := by rw [List.getElem?_map, h]; rfl

/-! ## Construction -/

/-- Construction meets the invariant, whatever the devices and the states they are given in. -/
theorem State.construct_inv (ds : List Device) : (State.construct ds).Inv := State.inv_iff.2 ⟨{
  mem := rfl
  flags := flagsFixed_reset
  queue := rfl
  mirror := rfl
  pending := fun p => Bool.noConfusion p
  devices := List.forall_mem_map.2 fun d _ => d.initial_inv
  breakpoints := List.nodup_nil }, rfl⟩

/-- Construction has as many devices as it is given, and puts each floppy controller into its initial state, whatever state
it is given in (70_reset_and_hazards.md R600). -/
theorem State.construct_controllers (ds : List Device) : (State.construct ds).devices.length = ds.length ∧
    ∀ (k : Nat) (f : Fdc), ds[k]? = some (.fdc f) → (State.construct ds).devices[k]? = some (.fdc Fdc.initial) :=
  ⟨List.length_map _, fun _ _ hf => getElem?_map_fdc hf⟩

/-- Settles O13: it is the case of the default devices. -/
theorem resetInv : Obligations.ResetInv := State.construct_inv _

/-- Settles O12: the values of `State.construct`, field by field, and the controllers of any list of devices. -/
theorem resetValues : Obligations.ResetValues := by
  have controller : ∃ f, State.reset.devices = [.fdc f] ∧ f.phase = .none ∧ f.active = none ∧ f.result = [] ∧ f.dor = 0 ∧
      f.log = [] ∧ msr f.phase = 0x80 := ⟨Fdc.initial, rfl, rfl, rfl, rfl, rfl, rfl, rfl⟩
  refine ⟨fun _ => rfl, rfl, rfl, rfl, rfl, rfl, rfl, rfl, rfl, rfl, rfl, rfl, rfl, rfl, rfl, rfl, rfl, rfl, rfl, rfl, rfl,
    rfl, controller, fun ds => ?_⟩
  obtain ⟨count, initial⟩ := State.construct_controllers ds
  exact ⟨count, fun k f hf => ⟨Fdc.initial, initial k f hf, rfl, rfl, rfl, rfl, rfl, rfl⟩⟩

/-! ## The host's reset -/

theorem State.ip_of_items_nil {s : State} (h : s.queue.items = []) : s.ip = s.pc := by
  simp [State.ip, BoundedQueue.size, h]

/-- The reset has as many devices as there were, and resets each floppy controller (70_reset_and_hazards.md R601). -/
theorem State.resetCore_controllers (s : State) : s.resetCore.devices.length = s.devices.length ∧
    ∀ (k : Nat) (f : Fdc), s.devices[k]? = some (.fdc f) → s.resetCore.devices[k]? = some (.fdc f.reset) :=
  ⟨List.length_map _, fun _ _ hf => getElem?_map_fdc hf⟩

/-- Settles O60: the step answers `State.resetCore` with its reply, and each value is a field of it. -/
theorem hostReset : Obligations.HostReset := by
  intro s rest
  obtain ⟨count, reset⟩ := State.resetCore_controllers s
  exact ⟨{ { s with agenda := rest }.resetCore with reply := .nothing }, rfl,
    rfl, rfl, State.ip_of_items_nil rfl, rfl, rfl, rfl, rfl, rfl, rfl, rfl, rfl, rfl, rfl, rfl, rfl, rfl, rfl, count,
    fun k f hf => ⟨f.reset, reset k f hf, rfl, rfl, rfl, rfl, rfl, rfl⟩⟩

/-! ## The halves of a word register -/

/-- Settles O17: the halves joined are the word, and `State.setReg8` writes one of them. -/
theorem registerHalves : Obligations.RegisterHalves := by
  intro s r v
  have join (x : Reg16) : s.reg16 x = hi8 (s.reg16 x) ++ lo8 (s.reg16 x) := (join16_hi8_lo8 _).symm
  exact ⟨join .ax, join .cx, join .dx, join .bx, s.reg8_setReg8_self r v,
    fun x hx => (s.reg8_setReg8 r v x).trans (if_neg hx), s.setReg8_changes r v⟩

end Sys2Proof.Machine
end

section
/-! Memory as the CPU and as the host access it: physical addresses, words and the latch (20_memory.md R61 to R63, R70 to
R73), and the host's bytes (R64 to R67). -/

namespace Sys2Proof.Machine

/-! ## Physical addresses, words and the latch -/

/-- The address formula in plain arithmetic (20_memory.md R61). -/
theorem phys_toNat (x o : Word) : (phys x o).toNat = (x.toNat * 16 + o.toNat) % 2 ^ 20 := by
  have hx := x.isLt
  have ho := o.isLt
  simp only [phys, BitVec.toNat_setWidth, BitVec.toNat_add, BitVec.toNat_shiftLeft, Nat.shiftLeft_eq]
  omega

theorem lo8_eq_setWidth (v : Word) : lo8 v = v.setWidth 8 := (BitVec.setWidth_eq_extractLsb' (by decide)).symm

theorem hi8_eq_setWidth_ushiftRight (v : Word) : hi8 v = (v >>> 8).setWidth 8 :=
  BitVec.setWidth_ushiftRight_eq_extractLsb.symm

/-- The two bytes of a word after it is written, low byte first (20_memory.md R71). -/
theorem State.memByte_write16_low (s : State) (x o v : Word) (hw : Memory.wf s.mem = true) :
    (s.write16 x o v).memByte (phys x o) = lo8 v := by
  rw [State.memByte_write16 s x o v _ hw, if_neg (phys_succ_ne x o).symm, if_pos rfl]

theorem State.memByte_write16_high (s : State) (x o v : Word) (hw : Memory.wf s.mem = true) :
    (s.write16 x o v).memByte (phys x (o + 1)) = hi8 v := by
  rw [State.memByte_write16 s x o v _ hw, if_pos rfl]

/-- Settles O16: the address in plain arithmetic, the two bytes of a written word, and the effects of the accesses. -/
theorem memoryAccess : Obligations.MemoryAccess := by
  intro s x o v hw
  exact ⟨phys_toNat x o, rfl, s.pa_changes x o, rfl, s.read16_changes x o,
    (s.memByte_write16_low x o v hw).trans (lo8_eq_setWidth v),
    (s.memByte_write16_high x o v hw).trans (hi8_eq_setWidth_ushiftRight v),
    s.wordAt_write16 x o v hw, s.write16_changes x o v hw⟩

/-! ## The host's bytes -/

/-- Whether one byte or more from an address all exist (20_memory.md R66). -/
theorem inBounds_iff {a : DWord} {n : Nat} (hn : n ≠ 0) : inBounds a n = true ↔ a.toNat + n ≤ 2 ^ 20 := by
  simp [inBounds, hn]

/-- A byte of physical memory, by the number of its address. -/
theorem State.memByte_ofNat (s : State) {k : Nat} (hk : k < 2 ^ 20) : s.memByte (BitVec.ofNat 20 k) = readMem s.mem k := by
  rw [State.memByte, BitVec.toNat_ofNat, Nat.mod_eq_of_lt hk]

/-- A byte at an address the host gives, in range. -/
theorem State.memByte_setWidth (s : State) {a : DWord} (h : a.toNat < 2 ^ 20) :
    s.memByte (a.setWidth 20) = readMem s.mem a.toNat := by
  rw [← BitVec.ofNat_toNat, s.memByte_ofNat h]

/-- The byte after it does not wrap. -/
theorem State.memByte_setWidth_succ (s : State) {a : DWord} (h : a.toNat + 1 < 2 ^ 20) :
    s.memByte (a.setWidth 20 + 1) = readMem s.mem (a.toNat + 1) := by
  rw [← s.memByte_ofNat h, BitVec.ofNat_add, BitVec.ofNat_toNat]; rfl

theorem State.hostBytes_eq_memByte (s : State) {a : DWord} {n : Nat} (h : a.toNat + n ≤ 2 ^ 20) :
    s.hostBytes a n = (List.range n).map (fun k => s.memByte (BitVec.ofNat 20 (a.toNat + k))) := by
  refine List.map_congr_left fun k hk => (s.memByte_ofNat ?_).symm
  have := List.mem_range.1 hk
  omega

/-- A write of bytes leaves every other address. -/
theorem readMem_writeBytesAt_outside {bs : List Byte} {a : Nat} {m : List Host.Cell} {b : Nat} (hw : Memory.wf m = true)
    (h : a + bs.length ≤ 2 ^ 20) (outside : b < a ∨ a + bs.length ≤ b) :
    readMem (writeBytesAt bs a m) b = readMem m b := by
  induction bs generalizing a m with
  | nil => rfl
  | cons c bs ih =>
    rw [List.length_cons] at h outside
    calc readMem (writeBytesAt bs (a + 1) (writeMem m a c)) b
        = readMem (writeMem m a c) b := ih (writeMem_wf m a c hw (by omega)) (by omega) (by omega)
      _ = readMem m b := by rw [readMem_writeMem m a c b hw, if_neg (by omega)]

/-- A write of bytes puts them at the addresses from the first up. -/
theorem readMem_writeBytesAt {bs : List Byte} {a : Nat} {m : List Host.Cell} {k : Nat} (hw : Memory.wf m = true)
    (h : a + bs.length ≤ 2 ^ 20) (hk : k < bs.length) : readMem (writeBytesAt bs a m) (a + k) = bs[k] := by
  induction bs generalizing a m k with
  | nil => exact absurd hk (Nat.not_lt_zero k)
  | cons c bs ih =>
    rw [List.length_cons] at h hk
    have hw' : Memory.wf (writeMem m a c) = true := writeMem_wf m a c hw (by omega)
    cases k with
    | zero =>
      calc readMem (writeBytesAt bs (a + 1) (writeMem m a c)) a
          = readMem (writeMem m a c) a := readMem_writeBytesAt_outside hw' (by omega) (by omega)
        _ = c := by rw [readMem_writeMem m a c a hw, if_pos rfl]
    | succ k =>
      rw [show a + (k + 1) = a + 1 + k by omega]
      exact ih hw' (by omega) (by omega)

section
variable (s : State) (rest : List HostCall) (a : DWord)

theorem step_readBytes (n : Nat) : step { s with agenda := .readBytes a n :: rest } = .next { s with
    agenda := rest, reply := if inBounds a n then .bytes (s.hostBytes a n) else .outOfBounds } := rfl

theorem step_fetchByte : step { s with agenda := .fetchByte a :: rest } = .next { s with
    agenda := rest, reply := if inBounds a 1 then .bytes [readMem s.mem a.toNat] else .outOfBounds } := rfl

theorem step_fetchWord : step { s with agenda := .fetchWord a :: rest } = .next { s with
    agenda := rest
    reply := if inBounds a 2 then .word (join16 (readMem s.mem (a.toNat + 1)) (readMem s.mem a.toNat))
      else .outOfBounds } := rfl

theorem step_writeBytes_of_inBounds {bs : List Byte} (h : inBounds a bs.length = true) :
    step { s with agenda := .writeBytes a bs :: rest } = .next { s with
      agenda := rest, mem := writeBytesAt bs a.toNat s.mem, reply := .nothing } :=
  congrArg Called.outcome (if_pos h)

theorem step_writeBytes_of_not_inBounds {bs : List Byte} (h : ¬ inBounds a bs.length = true) :
    step { s with agenda := .writeBytes a bs :: rest } = .next { s with agenda := rest, reply := .outOfBounds } :=
  congrArg Called.outcome (if_neg h)

end

/-- Settles O59: each call tests the bounds, and in bounds an address is the number of its byte. -/
theorem hostMemory : Obligations.HostMemory := by
  intro s rest a n bs hw hn hbs
  have hlen : bs.length ≠ 0 := mt List.length_eq_zero_iff.1 hbs
  refine ⟨fun h => ?readIn, fun h => ?readOut, fun h => ?writeIn, fun h => ?writeOut,
    fun h => ?byteIn, fun h => ?wordIn, fun h => ?byteOut, fun h => ?wordOut⟩
  case readIn => rw [step_readBytes, if_pos ((inBounds_iff hn).2 h), s.hostBytes_eq_memByte h]
  case readOut => rw [step_readBytes, if_neg (mt (inBounds_iff hn).1 (by omega))]
  case writeIn =>
    refine ⟨_, step_writeBytes_of_inBounds s rest a ((inBounds_iff hlen).2 h), rfl, rfl, rfl, rfl, rfl,
      fun k hk => ?_, fun b outside => readMem_writeBytesAt_outside hw h outside⟩
    rw [State.memByte_ofNat _ (by omega), List.getElem?_eq_getElem hk]
    exact congrArg some (readMem_writeBytesAt hw h hk)
  case writeOut => exact step_writeBytes_of_not_inBounds s rest a (mt (inBounds_iff hlen).1 (by omega))
  case byteIn => rw [step_fetchByte, if_pos ((inBounds_iff one_ne_zero).2 h), s.memByte_setWidth h]
  case byteOut => rw [step_fetchByte, if_neg (mt (inBounds_iff one_ne_zero).1 (by omega))]
  case wordIn =>
    rw [step_fetchWord, if_pos ((inBounds_iff two_ne_zero).2 h), s.memByte_setWidth_succ h,
      s.memByte_setWidth (Nat.lt_of_succ_lt h)]
  case wordOut => rw [step_fetchWord, if_neg (mt (inBounds_iff two_ne_zero).1 (by omega))]

end Sys2Proof.Machine
end

section
/-! Decoding an encoded instruction: each form of row is read back from its encoding, and every instruction has one of the
forms (30_encoding.md R106 to R126). -/

namespace Sys2Proof

/-! ## Rows with a ModRM byte, read back from their encoding -/

/-! The opcode byte is passed on only for the answer `Decoded.unknown`, so that a row every ModRM byte has is read alike with
any. -/

section
variable (op : Byte) {rest : List Byte}

theorem ebGb_encodeRm8 {c : Rm8 → Reg8 → Instr} {e : Rm8} {g : Reg8} (h : e.wf = true) :
    ebGb c op (encodeRm8 g.code e ++ rest) = .ok (c e g) rest :=
  withModRm_rm8 op g.code e rest _ (fun e => plain (c e g))
    (by cases e <;> simp only [Rm8.fields, Reg8.ofCode_code]) h

theorem gbEb_encodeRm8 {c : Reg8 → Rm8 → Instr} {e : Rm8} {g : Reg8} (h : e.wf = true) :
    gbEb c op (encodeRm8 g.code e ++ rest) = .ok (c g e) rest :=
  ebGb_encodeRm8 op (c := fun e g => c g e) h

theorem ewGw_encodeRm16 {c : Rm16 → Reg16 → Instr} {e : Rm16} {g : Reg16} (h : e.wf = true) :
    ewGw c op (encodeRm16 g.code e ++ rest) = .ok (c e g) rest :=
  withModRm_rm16 op g.code e rest _ (fun e => plain (c e g))
    (by cases e <;> simp only [Rm16.fields, Reg16.ofCode_code]) h

theorem gwEw_encodeRm16 {c : Reg16 → Rm16 → Instr} {e : Rm16} {g : Reg16} (h : e.wf = true) :
    gwEw c op (encodeRm16 g.code e ++ rest) = .ok (c g e) rest :=
  ewGw_encodeRm16 op (c := fun e g => c g e) h

end

theorem MemOp.modField_ne (m : MemOp) : m.modField ≠ 3 := by
  match m with
  | .direct _ | .base _ .none => simp [MemOp.modField]
  | .base _ (.d8 _) | .base _ (.d16 _) => simp [MemOp.modField]

section
variable {op : Byte} {rest : List Byte}

/-- A row that takes a memory operand only. -/
theorem withModRm_onMem {reg : BitVec 3} {m : MemOp} {k : ModRm → Option (Rm (BitVec 3) → List Byte → Decoded)}
    {f : MemOp → List Byte → Decoded} (h : m.wf = true) (row : k ⟨m.modField, reg, m.rmField⟩ = some (onMem op f)) :
    withModRm op (encodeMem reg m ++ rest) k = f m rest := by
  rw [withModRm_mem op reg m rest k h, row]
  rfl

theorem gwM_encodeMem {c : Reg16 → MemOp → Instr} {m : MemOp} {g : Reg16} (h : m.wf = true) :
    gwM c op (encodeMem g.code m ++ rest) = .ok (c g m) rest :=
  calc gwM c op (encodeMem g.code m ++ rest)
      = .ok (c (Reg16.ofCode g.code) m) rest :=
        withModRm_onMem (f := fun m => plain (c (Reg16.ofCode g.code) m)) h (if_neg m.modField_ne)
    _ = .ok (c g m) rest := by rw [Reg16.ofCode_code]

theorem imm16_wordBytes {c : Word → Instr} (i : Word) : imm16 c (wordBytes i ++ rest) = .ok (c i) rest :=
  congrArg (fun w => Decoded.ok (c w) rest) (join16_bytes i)

theorem far_wordBytes {c : Word → Word → Instr} (o x : Word) :
    far c ((wordBytes o ++ wordBytes x) ++ rest) = .ok (c o x) rest :=
  congrArg₂ (fun o x => Decoded.ok (c o x) rest) (join16_bytes o) (join16_bytes x)

theorem decode8C_encodeRm16 {e : Rm16} {g : Seg} (h : e.wf = true) :
    decode8C op (encodeRm16 g.code e ++ rest) = .ok (.movEwSw e g) rest :=
  withModRm_rm16 op g.code e rest _ (fun e => plain (.movEwSw e g)) (by cases e <;> cases g <;> rfl) h

/-- Opcode FF but for its far forms reads its operand as a group does. -/
theorem decodeFF_encodeRm16 {c : Rm16 → Instr} {reg : BitVec 3} {e : Rm16} (call : reg.toNat ≠ 3) (jump : reg.toNat ≠ 5)
    (member : groupFF reg = ew c) (h : e.wf = true) : decodeFF op (encodeRm16 reg e ++ rest) = .ok (c e) rest := by
  have field : (e.fields reg).reg = reg := by cases e <;> rfl
  refine withModRm_rm16 op reg e rest _ (fun e => plain (c e)) ?_ h
  rw [field]
  split
  · next e => exact absurd e call
  · next e => exact absurd e jump
  · exact member

theorem decodeFF_callMp {m : MemOp} (h : m.wf = true) : decodeFF op (encodeMem 3 m ++ rest) = .ok (.callMp m) rest :=
  withModRm_onMem (f := fun m => plain (.callMp m)) h (if_neg m.modField_ne)

theorem decodeFF_jmpMp {m : MemOp} (h : m.wf = true) : decodeFF op (encodeMem 5 m ++ rest) = .ok (.jmpMp m) rest :=
  withModRm_onMem (f := fun m => plain (.jmpMp m)) h (if_neg m.modField_ne)

section
variable {g : BitVec 3 → Option (Rm (BitVec 3) → List Byte → Decoded)} {reg : BitVec 3}

/-- A member of a group with a byte operand, and what it reads after the operand. -/
theorem group_encodeRm8 {e : Rm8} {f : Rm8 → List Byte → Decoded} (member : g reg = some fun x => f (rm8 x))
    (h : e.wf = true) : group g op (encodeRm8 reg e ++ rest) = f e rest :=
  withModRm_rm8 op reg e rest _ f (by cases e <;> exact member) h

/-- A member of a group with a word operand, and what it reads after the operand. -/
theorem group_encodeRm16 {e : Rm16} {f : Rm16 → List Byte → Decoded} (member : g reg = some fun x => f (rm16 x))
    (h : e.wf = true) : group g op (encodeRm16 reg e ++ rest) = f e rest :=
  withModRm_rm16 op reg e rest _ f (by cases e <;> exact member) h

theorem group_eb {c : Rm8 → Instr} {e : Rm8} (member : g reg = eb c) (h : e.wf = true) :
    group g op (encodeRm8 reg e ++ rest) = .ok (c e) rest :=
  group_encodeRm8 (f := fun e => plain (c e)) member h

theorem group_ew {c : Rm16 → Instr} {e : Rm16} (member : g reg = ew c) (h : e.wf = true) :
    group g op (encodeRm16 reg e ++ rest) = .ok (c e) rest :=
  group_encodeRm16 (f := fun e => plain (c e)) member h

theorem group_ebIb {c : Rm8 → Byte → Instr} {e : Rm8} {i : Byte} (member : g reg = ebIb c) (h : e.wf = true) :
    group g op ((encodeRm8 reg e ++ [i]) ++ rest) = .ok (c e i) rest := by
  rw [List.append_assoc]
  exact group_encodeRm8 (f := fun e => imm8 (c e)) member h

theorem group_ewIb {c : Rm16 → Byte → Instr} {e : Rm16} {i : Byte} (member : g reg = ewIb c) (h : e.wf = true) :
    group g op ((encodeRm16 reg e ++ [i]) ++ rest) = .ok (c e i) rest := by
  rw [List.append_assoc]
  exact group_encodeRm16 (f := fun e => imm8 (c e)) member h

theorem group_ewIw {c : Rm16 → Word → Instr} {e : Rm16} {i : Word} (member : g reg = ewIw c) (h : e.wf = true) :
    group g op ((encodeRm16 reg e ++ wordBytes i) ++ rest) = .ok (c e i) rest := by
  rw [List.append_assoc, group_encodeRm16 (f := fun e => imm16 (c e)) member h]
  exact imm16_wordBytes i

end

end

/-! ## Rows whose opcode byte holds a register number -/

theorem opReg_toNat (a : BitVec 5) (r : BitVec 3) : (opReg a r).toNat = a.toNat * 8 + r.toNat := by
  revert a r; decide

theorem field3_opReg (a : BitVec 5) (r : BitVec 3) : field3 (opReg a r) 0 = r := by
  revert a r; decide

theorem decode_opReg_esc (x : BitVec 3) (bs : List Byte) : decode (opReg 0x1B x :: bs) = decodeEsc (opReg 0x1B x) bs := by
  have low := x.isLt
  have opcode : (opReg 0x1B x).toNat = 0xD8 + x.toNat := opReg_toNat 0x1B x
  rw [decode, decodeOpcode]
  iterate 8 rw [if_neg (by omega)]
  rw [if_pos (by omega)]

theorem esc_encodeRm16 {x y : BitVec 3} {e : Rm16} {rest : List Byte} (h : e.wf = true) :
    decodeEsc (opReg 0x1B x) (encodeRm16 y e ++ rest) = .ok (.esc x y e) rest := by
  rw [decodeEsc, field3_opReg]
  exact withModRm_rm16 _ y e rest _ (fun e => plain (.esc x y e)) (by cases e <;> rfl) h

/-! ## Every instruction -/

theorem decode_encode {i : Instr} {rest : List Byte} (h : i.wf = true) : decode (encode i ++ rest) = .ok i rest := by
  cases i with
  | addEbGb | orEbGb | adcEbGb | sbbEbGb | andEbGb | subEbGb | xorEbGb | cmpEbGb | testEbGb | xchgEbGb | movEbGb =>
    exact ebGb_encodeRm8 0 h
  | addEwGw | orEwGw | adcEwGw | sbbEwGw | andEwGw | subEwGw | xorEwGw | cmpEwGw | testEwGw | xchgEwGw | movEwGw =>
    exact ewGw_encodeRm16 0 h
  | addGbEb | orGbEb | adcGbEb | sbbGbEb | andGbEb | subGbEb | xorGbEb | cmpGbEb | movGbEb =>
    exact gbEb_encodeRm8 0 h
  | addGwEw | orGwEw | adcGwEw | sbbGwEw | andGwEw | subGwEw | xorGwEw | cmpGwEw | movGwEw =>
    exact gwEw_encodeRm16 0 h
  | movEwSw => exact decode8C_encodeRm16 h
  | leaGwM | lesGwMp | ldsGwMp => exact gwM_encodeMem h
  | callMp => exact decodeFF_callMp h
  | jmpMp => exact decodeFF_jmpMp h
  -- Groups: the reg field selects the row.
  | addEbIb | orEbIb | adcEbIb | sbbEbIb | andEbIb | subEbIb | xorEbIb | cmpEbIb
  | addEbIb82 | adcEbIb82 | sbbEbIb82 | subEbIb82 | cmpEbIb82 | movEbIb | testEbIb => exact group_ebIb rfl h
  | addEwIbSx | adcEwIbSx | sbbEwIbSx | subEwIbSx | cmpEwIbSx => exact group_ewIb rfl h
  | addEwIw | orEwIw | adcEwIw | sbbEwIw | andEwIw | subEwIw | xorEwIw | cmpEwIw | movEwIw | testEwIw =>
    exact group_ewIw rfl h
  | rolEb1 | rorEb1 | rclEb1 | rcrEb1 | shlEb1 | shrEb1 | sarEb1
  | rolEbCl | rorEbCl | rclEbCl | rcrEbCl | shlEbCl | shrEbCl | sarEbCl
  | notEb | negEb | mulEb | imulEb | divEb | idivEb | incEb | decEb => exact group_eb rfl h
  | movEsEw | movSsEw | movDsEw | popEw
  | rolEw1 | rorEw1 | rclEw1 | rcrEw1 | shlEw1 | shrEw1 | sarEw1
  | rolEwCl | rorEwCl | rclEwCl | rcrEwCl | shlEwCl | shrEwCl | sarEwCl
  | notEw | negEw | mulEw | imulEw | divEw | idivEw => exact group_ew rfl h
  | incEw | decEw | callEw | jmpEw | pushEw => exact decodeFF_encodeRm16 (by decide) (by decide) rfl h
  | esc x => rw [encode, List.cons_append, decode_opReg_esc]; exact esc_encodeRm16 h
  -- An immediate, an offset or a far pointer after the opcode.
  | addAxIw i | orAxIw i | adcAxIw i | sbbAxIw i | andAxIw i | subAxIw i | xorAxIw i | cmpAxIw i | testAxIw i
  | movAlOb i | movAxOw i | movObAl i | movOwAx i | retIw i | retfIw i | callJw i | jmpJw i => exact imm16_wordBytes i
  | callAp o x | jmpAp o x => exact far_wordBytes o x
  | movR16Iw r i => cases r <;> exact imm16_wordBytes i
  | incR16 r | decR16 r | pushR16 r | popR16 r | movR8Ib r i => cases r <;> rfl
  | xchgAxR16 r =>
    cases r with
    | ax => exact absurd h (by decide)
    | cx | dx | bx | sp | bp | si | di => rfl
  -- The opcode alone, or a byte after it.
  | _ => rfl

/-- Settles O2: each form of row is read back from its encoding. -/
theorem decodeEncode : Obligations.DecodeEncode := fun _ _ h => decode_encode h

/-- Settles O1: the decoder computes each. -/
theorem wordsDecode : Obligations.WordsDecode := ⟨rfl, rfl, rfl, rfl, rfl, rfl, rfl, rfl, rfl, rfl, rfl, rfl⟩

end Sys2Proof
end

section
/-! What decoding a row can come to, said once for every opcode: an unknown encoding exactly where R140 lists it, else an
instruction of the length R127 computes, or too few bytes for that length. -/

namespace Sys2Proof.Machine

/-! ## What decoding a row can come to -/

/-- R140's list, the repeat prefixes' case apart: opcode n with the ModRM fields reg and mod matches no row. -/
def noRow (n reg md : Nat) : Bool := decide (
  n ∈ [0x0F, 0xC0, 0xC1, 0xC8, 0xC9, 0xD6, 0xF1] ∨ (0x60 ≤ n ∧ n ≤ 0x6F) ∨
  (n ∈ [0x82, 0x83] ∧ reg ∈ [1, 4, 6]) ∨
  (n = 0x8C ∧ 4 ≤ reg) ∨
  (n = 0x8E ∧ (reg = 1 ∨ 4 ≤ reg)) ∨
  (n ∈ [0x8F, 0xC6, 0xC7] ∧ reg ≠ 0) ∨
  ((0xD0 ≤ n ∧ n ≤ 0xD3) ∧ reg = 6) ∨
  (n ∈ [0xF6, 0xF7] ∧ reg = 1) ∨
  (n = 0xFE ∧ 2 ≤ reg) ∨
  (n = 0xFF ∧ (reg = 7 ∨ (reg ∈ [3, 5] ∧ md = 3))) ∨
  (n ∈ [0x8D, 0xC4, 0xC5] ∧ md = 3))

/-- `noRow` of an opcode and the byte after it. -/
def noRowAt (op next : Byte) : Bool := noRow op.toNat (next.toNat / 8 % 8) (next.toNat / 64)

/-- What decoding comes to, by R140's list and R127's length. -/
inductive RowRead (op : Byte) (bs : List Byte) : Decoded → Prop
  | unknown (h : noRowAt op (bs.headD 0) = true) : RowRead op bs (.unknown op)
  | truncated (h : noRowAt op (bs.headD 0) = false) (short : bs.length + 1 < rowLength op (bs.headD 0)) :
    RowRead op bs .truncated
  | ok {i : Instr} (h : noRowAt op (bs.headD 0) = false) (wf : i.wf = true)
    (alone : i.isPrefix = true → rowLength op (bs.headD 0) = 1) (long : rowLength op (bs.headD 0) ≤ bs.length + 1) :
    RowRead op bs (.ok i ((op :: bs).drop (rowLength op (bs.headD 0))))

/-! ## After the opcode or the operand -/

/-- A well-formed instruction that is no row of R104's. -/
def Proper (i : Instr) : Prop := i.wf = true ∧ i.isPrefix = false

/-- `p` reads n bytes and answers a proper instruction, or finds fewer. -/
def Takes (n : Nat) (p : List Byte → Decoded) : Prop :=
  ∀ bs, (bs.length < n ∧ p bs = .truncated) ∨ (n ≤ bs.length ∧ ∃ i, p bs = .ok i (bs.drop n) ∧ Proper i)

theorem plain_takes {i : Instr} (h : Proper i) : Takes 0 (plain i) := fun _ => .inr ⟨Nat.zero_le _, i, rfl, h⟩

theorem imm8_takes {c : Byte → Instr} (h : ∀ b, Proper (c b)) : Takes 1 (imm8 c)
  | [] => .inl ⟨by decide, rfl⟩
  | b :: _ => .inr ⟨by simp, c b, rfl, h b⟩

theorem imm16_takes {c : Word → Instr} (h : ∀ w, Proper (c w)) : Takes 2 (imm16 c)
  | [] | [_] => .inl ⟨by simp, rfl⟩
  | _ :: _ :: _ => .inr ⟨by simp, _, rfl, h _⟩

theorem far_takes {c : Word → Word → Instr} (h : ∀ o x, Proper (c o x)) : Takes 4 (far c)
  | [] | [_] | [_, _] | [_, _, _] => .inl ⟨by simp, rfl⟩
  | _ :: _ :: _ :: _ :: _ => .inr ⟨by simp, _, rfl, h _ _⟩

/-! ## Rows without a ModRM byte -/

section
variable {op : Byte} {bs : List Byte}

/-- The opcode is in the table, and n bytes follow it, whatever they are. -/
def Fixed (op : Byte) (n : Nat) : Prop := ∀ b, rowLength op b = n + 1 ∧ noRowAt op b = false

theorem fixed_read {n : Nat} {p : List Byte → Decoded} (f : Fixed op n) (t : Takes n p) : RowRead op bs (p bs) := by
  obtain ⟨len, row⟩ := f (bs.headD 0)
  rcases t bs with ⟨short, e⟩ | ⟨long, i, e, wf, np⟩
  · rw [e]; exact .truncated row (by omega)
  · have drop : bs.drop n = (op :: bs).drop (rowLength op (bs.headD 0)) := by rw [len]; rfl
    rw [e, drop]
    exact .ok row wf (fun h => absurd h (by simp [np])) (by omega)

/-- The rows of R104. -/
theorem prefix_read {i : Instr} (f : Fixed op 0) (wf : i.wf = true) : RowRead op bs (plain i bs) := by
  obtain ⟨len, row⟩ := f (bs.headD 0)
  have drop : bs = (op :: bs).drop (rowLength op (bs.headD 0)) := by rw [len]; rfl
  have read : RowRead op bs (.ok i ((op :: bs).drop (rowLength op (bs.headD 0)))) := .ok row wf (fun _ => len) (by omega)
  rwa [← drop] at read

/-! ## Rows with a ModRM byte -/

theorem splitModRm_reg_toNat (b : Byte) : (splitModRm b).reg.toNat = b.toNat / 8 % 8 := by revert b; decide

theorem splitModRm_mod_toNat (b : Byte) : (splitModRm b).mod.toNat = b.toNat / 64 := by revert b; decide

theorem splitModRm_rm_eq_six (b : Byte) : (splitModRm b).rm = 6 ↔ b.toNat % 8 = 6 := by revert b; decide

theorem EaBase.ofCode_ne_bp {n : BitVec 3} (h : n ≠ 6) : EaBase.ofCode n ≠ .bp := by revert n; decide

/-- The operand is the one the mod field asks for, with an encoding. -/
def Fits (b : Byte) (e : Rm (BitVec 3)) : Prop := e.wf = true ∧ (b.toNat / 64 ≠ 3 → ∃ m, e = .mem m)

/-- Reading the operand of a ModRM byte: its displacement is there, or bytes are missing. -/
theorem readOperand_cases (b : Byte) (bs : List Byte) :
    (bs.length < dispLength b ∧ readOperand (splitModRm b) bs = none) ∨
    (dispLength b ≤ bs.length ∧ ∃ e, readOperand (splitModRm b) bs = some (e, bs.drop (dispLength b)) ∧ Fits b e) := by
  have four : b.toNat / 64 < 4 := by omega
  unfold readOperand
  rw [splitModRm_mod_toNat]
  match md : b.toNat / 64, bs, four with
  | 3, bs, _ =>
    rw [show dispLength b = 0 by simp [dispLength, md]]
    exact .inr ⟨Nat.zero_le _, _, rfl, rfl, fun h => absurd md h⟩
  | 0, bs, _ =>
    by_cases direct : b.toNat % 8 = 6
    · rw [show dispLength b = 2 by simp [dispLength, md, direct]]
      simp only [if_pos ((splitModRm_rm_eq_six b).2 direct)]
      match bs with
      | [] | [_] => exact .inl ⟨by simp, rfl⟩
      | lo :: hi :: rest => exact .inr ⟨by simp, _, rfl, rfl, fun _ => ⟨_, rfl⟩⟩
    · have six := mt (splitModRm_rm_eq_six b).1 direct
      rw [show dispLength b = 0 by simp [dispLength, md, direct]]
      simp only [if_neg six]
      exact .inr ⟨Nat.zero_le _, _, rfl, by simp [Rm.wf, MemOp.wf, EaBase.ofCode_ne_bp six], fun _ => ⟨_, rfl⟩⟩
  | 1, bs, _ =>
    rw [show dispLength b = 1 by simp [dispLength, md]]
    match bs with
    | [] => exact .inl ⟨by simp, rfl⟩
    | d :: rest => exact .inr ⟨by simp, _, rfl, by simp [Rm.wf, MemOp.wf], fun _ => ⟨_, rfl⟩⟩
  | 2, bs, _ =>
    rw [show dispLength b = 2 by simp [dispLength, md]]
    match bs with
    | [] | [_] => exact .inl ⟨by simp, rfl⟩
    | lo :: hi :: rest => exact .inr ⟨by simp, _, rfl, by simp [Rm.wf, MemOp.wf], fun _ => ⟨_, rfl⟩⟩

/-- The row that the ModRM byte selects, if any: whether there is one, and what it reads after the operand. -/
def Admits (op b : Byte) : Option (Rm (BitVec 3) → List Byte → Decoded) → Prop
  | none => noRowAt op b = true
  | some f => noRowAt op b = false ∧ ∀ e, Fits b e → Takes (immLength op.toNat (b.toNat / 8 % 8)) (f e)

theorem withModRm_read {k : ModRm → Option (Rm (BitVec 3) → List Byte → Decoded)} (hm : hasModRm op = true)
    (h0 : noRowAt op 0 = false) (row : ∀ b, Admits op b (k (splitModRm b))) : RowRead op bs (withModRm op bs k) := by
  have len (b : Byte) : rowLength op b = 2 + dispLength b + immLength op.toNat (b.toNat / 8 % 8) := if_pos hm
  match bs with
  | [] => exact .truncated h0 (by rw [len]; simp only [List.length_nil]; omega)
  | b :: rest =>
    have admits := row b
    rw [withModRm]
    cases e : k (splitModRm b) with
    | none => rw [e] at admits; exact .unknown admits
    | some f =>
      rw [e] at admits
      obtain ⟨listed, takes⟩ := admits
      rcases readOperand_cases b rest with ⟨short, h⟩ | ⟨long, x, h, fits⟩
      · simp only [h]
        exact .truncated listed (by simp only [List.headD_cons, List.length_cons, len]; omega)
      · simp only [h]
        rcases takes x fits (rest.drop (dispLength b)) with ⟨short, h⟩ | ⟨long', i, h, wf, np⟩
        · rw [h]
          rw [List.length_drop] at short
          exact .truncated listed (by simp only [List.headD_cons, List.length_cons, len]; omega)
        · have drop : (rest.drop (dispLength b)).drop (immLength op.toNat (b.toNat / 8 % 8)) =
              (op :: b :: rest).drop (rowLength op b) := by
            rw [len, List.drop_drop, Nat.add_assoc, Nat.add_comm 2]; rfl
          rw [List.length_drop] at long'
          rw [h, drop]
          exact .ok listed wf (fun h => absurd h (by simp [np]))
            (by simp only [List.headD_cons, List.length_cons, len]; omega)

theorem wf_rm8 (e : Rm (BitVec 3)) : (rm8 e).wf = e.wf := by cases e <;> rfl

theorem wf_rm16 (e : Rm (BitVec 3)) : (rm16 e).wf = e.wf := by cases e <;> rfl

/-- The opcode has an operand and no immediate, and every ModRM byte selects a row. -/
def OperandOnly (op : Byte) : Prop :=
  hasModRm op = true ∧ ∀ b, noRowAt op b = false ∧ immLength op.toNat (b.toNat / 8 % 8) = 0

theorem operandOnly_read {c : ModRm → Rm (BitVec 3) → Instr} (h : OperandOnly op)
    (hc : ∀ m e, e.wf = true → Proper (c m e)) :
    RowRead op bs (withModRm op bs fun m => some fun e => plain (c m e)) := by
  obtain ⟨hm, rows⟩ := h
  refine withModRm_read hm (rows 0).1 fun b => ⟨(rows b).1, fun e fits => ?_⟩
  rw [(rows b).2]
  exact plain_takes (hc _ e fits.1)

theorem ebGb_read {c : Rm8 → Reg8 → Instr} (h : OperandOnly op) (hc : ∀ e g, e.wf = true → Proper (c e g)) :
    RowRead op bs (ebGb c op bs) := operandOnly_read h fun _ e wf => hc _ _ ((wf_rm8 e).trans wf)

theorem gbEb_read {c : Reg8 → Rm8 → Instr} (h : OperandOnly op) (hc : ∀ e g, e.wf = true → Proper (c g e)) :
    RowRead op bs (gbEb c op bs) := operandOnly_read h fun _ e wf => hc _ _ ((wf_rm8 e).trans wf)

theorem ewGw_read {c : Rm16 → Reg16 → Instr} (h : OperandOnly op) (hc : ∀ e g, e.wf = true → Proper (c e g)) :
    RowRead op bs (ewGw c op bs) := operandOnly_read h fun _ e wf => hc _ _ ((wf_rm16 e).trans wf)

theorem gwEw_read {c : Reg16 → Rm16 → Instr} (h : OperandOnly op) (hc : ∀ e g, e.wf = true → Proper (c g e)) :
    RowRead op bs (gwEw c op bs) := operandOnly_read h fun _ e wf => hc _ _ ((wf_rm16 e).trans wf)

theorem decodeEsc_read (h : OperandOnly op) : RowRead op bs (decodeEsc op bs) :=
  operandOnly_read h fun _ e wf => ⟨(wf_rm16 e).trans wf, rfl⟩

/-! ### Groups -/

/-- What a member of a group reads after its operand: n bytes. -/
def Member (n : Nat) (o : Option (Rm (BitVec 3) → List Byte → Decoded)) : Prop :=
  ∀ f, o = some f → ∀ e, e.wf = true → Takes n (f e)

theorem none_member {n : Nat} : Member n none := fun _ h => nomatch h

theorem eb_member {c : Rm8 → Instr} (hc : ∀ e, e.wf = true → Proper (c e)) : Member 0 (eb c) := by
  rintro _ ⟨⟩ e wf
  exact plain_takes (hc _ ((wf_rm8 e).trans wf))

theorem ew_member {c : Rm16 → Instr} (hc : ∀ e, e.wf = true → Proper (c e)) : Member 0 (ew c) := by
  rintro _ ⟨⟩ e wf
  exact plain_takes (hc _ ((wf_rm16 e).trans wf))

theorem ebIb_member {c : Rm8 → Byte → Instr} (hc : ∀ e i, e.wf = true → Proper (c e i)) : Member 1 (ebIb c) := by
  rintro _ ⟨⟩ e wf
  exact imm8_takes fun _ => hc _ _ ((wf_rm8 e).trans wf)

theorem ewIb_member {c : Rm16 → Byte → Instr} (hc : ∀ e i, e.wf = true → Proper (c e i)) : Member 1 (ewIb c) := by
  rintro _ ⟨⟩ e wf
  exact imm8_takes fun _ => hc _ _ ((wf_rm16 e).trans wf)

theorem ewIw_member {c : Rm16 → Word → Instr} (hc : ∀ e i, e.wf = true → Proper (c e i)) : Member 2 (ewIw c) := by
  rintro _ ⟨⟩ e wf
  exact imm16_takes fun _ => hc _ _ ((wf_rm16 e).trans wf)

/-- R140's list at a ModRM byte, from a table of it by the fields. -/
theorem noRowAt_eq {f : Nat → Nat → Bool} (listed : ∀ reg < 8, ∀ md < 4, noRow op.toNat reg md = f reg md) (b : Byte) :
    noRowAt op b = f (splitModRm b).reg.toNat (splitModRm b).mod.toNat := by
  rw [splitModRm_mod_toNat, splitModRm_reg_toNat]
  exact listed _ (by omega) _ (by omega)

theorem Admits.of_member {b : Byte} {o : Option (Rm (BitVec 3) → List Byte → Decoded)} (row : noRowAt op b = o.isNone)
    (member : Member (immLength op.toNat (splitModRm b).reg.toNat) o) : Admits op b o := by
  cases o with
  | none => exact row
  | some f => exact ⟨row, fun x fits => splitModRm_reg_toNat b ▸ member f rfl x fits.1⟩

theorem group_read {g : BitVec 3 → Option (Rm (BitVec 3) → List Byte → Decoded)} (hm : hasModRm op = true)
    (h0 : noRowAt op 0 = false) (listed : ∀ reg < 8, ∀ md < 4, noRow op.toNat reg md = (g (.ofNat 3 reg)).isNone)
    (member : ∀ reg, Member (immLength op.toNat reg.toNat) (g reg)) : RowRead op bs (group g op bs) :=
  withModRm_read hm h0 fun b => .of_member (by rw [noRowAt_eq listed, BitVec.ofNat_toNat, BitVec.setWidth_eq]) (member _)

theorem group80_member (reg : BitVec 3) : Member 1 (group80 reg) := by
  rw [group80]
  split
  iterate 8 exact ebIb_member fun _ _ h => ⟨h, rfl⟩
  exact none_member

theorem group81_member (reg : BitVec 3) : Member 2 (group81 reg) := by
  rw [group81]
  split
  iterate 8 exact ewIw_member fun _ _ h => ⟨h, rfl⟩
  exact none_member

theorem group82_member (reg : BitVec 3) : Member 1 (group82 reg) := by
  rw [group82]
  split
  iterate 5 exact ebIb_member fun _ _ h => ⟨h, rfl⟩
  exact none_member

theorem group83_member (reg : BitVec 3) : Member 1 (group83 reg) := by
  rw [group83]
  split
  iterate 5 exact ewIb_member fun _ _ h => ⟨h, rfl⟩
  exact none_member

theorem group8E_member (reg : BitVec 3) : Member 0 (group8E reg) := by
  rw [group8E]
  split
  iterate 3 exact ew_member fun _ h => ⟨h, rfl⟩
  exact none_member

theorem group8F_member (reg : BitVec 3) : Member 0 (group8F reg) := by
  rw [group8F]
  split
  · exact ew_member fun _ h => ⟨h, rfl⟩
  · exact none_member

theorem groupC6_member (reg : BitVec 3) : Member 1 (groupC6 reg) := by
  rw [groupC6]
  split
  · exact ebIb_member fun _ _ h => ⟨h, rfl⟩
  · exact none_member

theorem groupC7_member (reg : BitVec 3) : Member 2 (groupC7 reg) := by
  rw [groupC7]
  split
  · exact ewIw_member fun _ _ h => ⟨h, rfl⟩
  · exact none_member

theorem groupD0_member (reg : BitVec 3) : Member 0 (groupD0 reg) := by
  rw [groupD0]
  split
  iterate 7 exact eb_member fun _ h => ⟨h, rfl⟩
  exact none_member

theorem groupD1_member (reg : BitVec 3) : Member 0 (groupD1 reg) := by
  rw [groupD1]
  split
  iterate 7 exact ew_member fun _ h => ⟨h, rfl⟩
  exact none_member

theorem groupD2_member (reg : BitVec 3) : Member 0 (groupD2 reg) := by
  rw [groupD2]
  split
  iterate 7 exact eb_member fun _ h => ⟨h, rfl⟩
  exact none_member

theorem groupD3_member (reg : BitVec 3) : Member 0 (groupD3 reg) := by
  rw [groupD3]
  split
  iterate 7 exact ew_member fun _ h => ⟨h, rfl⟩
  exact none_member

/-- TEST has an immediate, the rows after it have none. -/
theorem groupF6_member (reg : BitVec 3) : Member (immLength 0xF6 reg.toNat) (groupF6 reg) := by
  rw [groupF6]
  split
  · next test => rw [test]; exact ebIb_member fun _ _ h => ⟨h, rfl⟩
  iterate 6 next other => rw [other]; exact eb_member fun _ h => ⟨h, rfl⟩
  exact none_member

theorem groupF7_member (reg : BitVec 3) : Member (immLength 0xF7 reg.toNat) (groupF7 reg) := by
  rw [groupF7]
  split
  · next test => rw [test]; exact ewIw_member fun _ _ h => ⟨h, rfl⟩
  iterate 6 next other => rw [other]; exact ew_member fun _ h => ⟨h, rfl⟩
  exact none_member

theorem groupFE_member (reg : BitVec 3) : Member 0 (groupFE reg) := by
  rw [groupFE]
  split
  iterate 2 exact eb_member fun _ h => ⟨h, rfl⟩
  exact none_member

theorem groupFF_member (reg : BitVec 3) : Member 0 (groupFF reg) := by
  rw [groupFF]
  split
  iterate 5 exact ew_member fun _ h => ⟨h, rfl⟩
  exact none_member

/-! ### Rows with a form of their own -/

theorem decode8C_read : RowRead 0x8C bs (decode8C 0x8C bs) := by
  refine withModRm_read rfl rfl fun b => ?_
  have row : noRowAt 0x8C b = decide (4 ≤ (splitModRm b).reg.toNat) :=
    noRowAt_eq (f := fun reg _ => decide (4 ≤ reg)) (by decide) b
  split
  · next h => exact ⟨row.trans (decide_eq_false (by omega)), fun e fits => plain_takes ⟨(wf_rm16 e).trans fits.1, rfl⟩⟩
  · next h => exact row.trans (decide_eq_true (by omega))

/-- A row that takes a memory operand only: with mod = 11 there is none. -/
theorem Admits.memOnly {b : Byte} {c : MemOp → Instr} (row : noRowAt op b = decide ((splitModRm b).mod.toNat = 3))
    (imm : immLength op.toNat (b.toNat / 8 % 8) = 0) (hc : ∀ m, m.wf = true → Proper (c m)) :
    Admits op b (if (splitModRm b).mod = 3 then none else some (onMem op fun m => plain (c m))) := by
  split
  · next h => exact row.trans (decide_eq_true (congrArg BitVec.toNat h))
  · next h =>
    have three : (splitModRm b).mod.toNat ≠ 3 := fun e => h (BitVec.eq_of_toNat_eq e)
    refine ⟨row.trans (decide_eq_false three), fun e fits => ?_⟩
    obtain ⟨m, rfl⟩ := fits.2 (splitModRm_mod_toNat b ▸ three)
    rw [imm]
    exact plain_takes (hc m fits.1)

theorem gwM_read {c : Reg16 → MemOp → Instr} (hm : hasModRm op = true) (h0 : noRowAt op 0 = false)
    (listed : ∀ reg < 8, ∀ md < 4, noRow op.toNat reg md = decide (md = 3)) (imm : ∀ reg, immLength op.toNat reg = 0)
    (hc : ∀ g m, m.wf = true → Proper (c g m)) : RowRead op bs (gwM c op bs) :=
  withModRm_read hm h0 fun b => .memOnly (noRowAt_eq (f := fun _ md => decide (md = 3)) listed b) (imm _) (hc _)

/-- R140's entry for opcode FF. -/
def noRowFF (reg md : Nat) : Bool := reg = 7 || (reg = 3 || reg = 5) && md = 3

theorem decodeFF_read : RowRead 0xFF bs (decodeFF 0xFF bs) := by
  refine withModRm_read rfl rfl fun b => ?_
  have row : noRowAt 0xFF b = noRowFF (splitModRm b).reg.toNat (splitModRm b).mod.toNat := noRowAt_eq (by decide) b
  split
  · next h => exact .memOnly (by rw [row, h]; simp [noRowFF]) rfl fun _ h => ⟨h, rfl⟩
  · next h => exact .memOnly (by rw [row, h]; simp [noRowFF]) rfl fun _ h => ⟨h, rfl⟩
  · next call jump =>
    have near : ∀ reg : BitVec 3, reg.toNat ≠ 3 → reg.toNat ≠ 5 → (groupFF reg).isNone = decide (reg.toNat = 7) := by decide
    refine .of_member ?_ (groupFF_member _)
    rw [row, near _ call jump]
    simp [noRowFF, decide_eq_false call, decide_eq_false jump]

end

/-! ## Every opcode, by the opcode map (30_encoding.md R117 to R126, R140) -/

theorem decodeOpcode_read_ofNat (n : Nat) (h : n < 256) (bs : List Byte) :
    RowRead (BitVec.ofNat 8 n) bs (decodeOpcode (BitVec.ofNat 8 n) bs) := by
  match n with
  -- R117, R119: an operand and a register.
  | 0x00 | 0x08 | 0x10 | 0x18 | 0x20 | 0x28 | 0x30 | 0x38 | 0x84 | 0x86 | 0x88 =>
    exact ebGb_read ⟨rfl, fun _ => ⟨rfl, rfl⟩⟩ fun _ _ h => ⟨h, rfl⟩
  | 0x01 | 0x09 | 0x11 | 0x19 | 0x21 | 0x29 | 0x31 | 0x39 | 0x85 | 0x87 | 0x89 =>
    exact ewGw_read ⟨rfl, fun _ => ⟨rfl, rfl⟩⟩ fun _ _ h => ⟨h, rfl⟩
  | 0x02 | 0x0A | 0x12 | 0x1A | 0x22 | 0x2A | 0x32 | 0x3A | 0x8A =>
    exact gbEb_read ⟨rfl, fun _ => ⟨rfl, rfl⟩⟩ fun _ _ h => ⟨h, rfl⟩
  | 0x03 | 0x0B | 0x13 | 0x1B | 0x23 | 0x2B | 0x33 | 0x3B | 0x8B =>
    exact gwEw_read ⟨rfl, fun _ => ⟨rfl, rfl⟩⟩ fun _ _ h => ⟨h, rfl⟩
  | 0x8D | 0xC4 | 0xC5 => exact gwM_read rfl rfl (by decide) (fun _ => rfl) fun _ _ h => ⟨h, rfl⟩
  | 0x8C => exact decode8C_read
  | 0xD8 | 0xD9 | 0xDA | 0xDB | 0xDC | 0xDD | 0xDE | 0xDF => exact decodeEsc_read ⟨rfl, fun _ => ⟨rfl, rfl⟩⟩
  | 0xFF => exact decodeFF_read
  -- R121 to R125: the groups.
  | 0x80 => exact group_read rfl rfl (by decide) group80_member
  | 0x81 => exact group_read rfl rfl (by decide) group81_member
  | 0x82 => exact group_read rfl rfl (by decide) group82_member
  | 0x83 => exact group_read rfl rfl (by decide) group83_member
  | 0x8E => exact group_read rfl rfl (by decide) group8E_member
  | 0x8F => exact group_read rfl rfl (by decide) group8F_member
  | 0xC6 => exact group_read rfl rfl (by decide) groupC6_member
  | 0xC7 => exact group_read rfl rfl (by decide) groupC7_member
  | 0xD0 => exact group_read rfl rfl (by decide) groupD0_member
  | 0xD1 => exact group_read rfl rfl (by decide) groupD1_member
  | 0xD2 => exact group_read rfl rfl (by decide) groupD2_member
  | 0xD3 => exact group_read rfl rfl (by decide) groupD3_member
  | 0xF6 => exact group_read rfl rfl (by decide) groupF6_member
  | 0xF7 => exact group_read rfl rfl (by decide) groupF7_member
  | 0xFE => exact group_read rfl rfl (by decide) groupFE_member
  -- Bytes after the opcode.
  | 0x04 | 0x0C | 0x14 | 0x1C | 0x24 | 0x2C | 0x34 | 0x3C | 0x70 | 0x71 | 0x72 | 0x73 | 0x74 | 0x75 | 0x76 | 0x77
  | 0x78 | 0x79 | 0x7A | 0x7B | 0x7C | 0x7D | 0x7E | 0x7F | 0xA8 | 0xB0 | 0xB1 | 0xB2 | 0xB3 | 0xB4 | 0xB5 | 0xB6
  | 0xB7 | 0xCD | 0xD4 | 0xD5 | 0xE0 | 0xE1 | 0xE2 | 0xE3 | 0xE4 | 0xE5 | 0xE6 | 0xE7 | 0xEB =>
    exact fixed_read (fun _ => ⟨rfl, rfl⟩) (imm8_takes fun _ => ⟨rfl, rfl⟩)
  | 0x05 | 0x0D | 0x15 | 0x1D | 0x25 | 0x2D | 0x35 | 0x3D | 0xA0 | 0xA1 | 0xA2 | 0xA3 | 0xA9 | 0xB8 | 0xB9 | 0xBA
  | 0xBB | 0xBC | 0xBD | 0xBE | 0xBF | 0xC2 | 0xCA | 0xE8 | 0xE9 =>
    exact fixed_read (fun _ => ⟨rfl, rfl⟩) (imm16_takes fun _ => ⟨rfl, rfl⟩)
  | 0x9A | 0xEA => exact fixed_read (fun _ => ⟨rfl, rfl⟩) (far_takes fun _ _ => ⟨rfl, rfl⟩)
  -- The opcode alone.
  | 0x06 | 0x07 | 0x0E | 0x16 | 0x17 | 0x1E | 0x1F | 0x27 | 0x2F | 0x37 | 0x3F | 0x40 | 0x41 | 0x42 | 0x43 | 0x44
  | 0x45 | 0x46 | 0x47 | 0x48 | 0x49 | 0x4A | 0x4B | 0x4C | 0x4D | 0x4E | 0x4F | 0x50 | 0x51 | 0x52 | 0x53 | 0x54
  | 0x55 | 0x56 | 0x57 | 0x58 | 0x59 | 0x5A | 0x5B | 0x5C | 0x5D | 0x5E | 0x5F | 0x90 | 0x91 | 0x92 | 0x93 | 0x94
  | 0x95 | 0x96 | 0x97 | 0x98 | 0x99 | 0x9B | 0x9C | 0x9D | 0x9E | 0x9F | 0xA4 | 0xA5 | 0xA6 | 0xA7 | 0xAA | 0xAB
  | 0xAC | 0xAD | 0xAE | 0xAF | 0xC3 | 0xCB | 0xCC | 0xCE | 0xCF | 0xD7 | 0xEC | 0xED | 0xEE | 0xEF | 0xF4 | 0xF5
  | 0xF8 | 0xF9 | 0xFA | 0xFB | 0xFC | 0xFD => exact fixed_read (fun _ => ⟨rfl, rfl⟩) (plain_takes ⟨rfl, rfl⟩)
  -- The prefixes (R104).
  | 0x26 | 0x2E | 0x36 | 0x3E | 0xF0 | 0xF2 | 0xF3 => exact prefix_read (fun _ => ⟨rfl, rfl⟩) rfl
  -- R140's single opcodes.
  | 0x0F | 0xC0 | 0xC1 | 0xC8 | 0xC9 | 0xD6 | 0xF1 | 0x60 | 0x61 | 0x62 | 0x63 | 0x64 | 0x65 | 0x66 | 0x67 | 0x68
  | 0x69 | 0x6A | 0x6B | 0x6C | 0x6D | 0x6E | 0x6F => exact .unknown rfl
  | n + 256 => omega

theorem decodeOpcode_read (op : Byte) (bs : List Byte) : RowRead op bs (decodeOpcode op bs) := by
  have read := decodeOpcode_read_ofNat op.toNat op.isLt bs
  rwa [BitVec.ofNat_toNat, BitVec.setWidth_eq] at read

theorem RowRead.unknown_iff {op : Byte} {bs : List Byte} {d : Decoded} (h : RowRead op bs d) :
    d = .unknown op ↔ noRowAt op (bs.headD 0) = true := by
  cases h with
  | unknown row => exact iff_of_true rfl row
  | truncated row | ok row => exact iff_of_false nofun (Bool.eq_false_iff.1 row)

/-- Settles O3: of the three outcomes of decoding only `RowRead.ok` answers an instruction. -/
theorem decodedLength : Obligations.DecodedLength := by
  intro op bs i rest h
  have read : RowRead op bs (.ok i rest) := h ▸ decodeOpcode_read op bs
  cases read with
  | ok _ wf _ long => exact ⟨wf, long, rfl⟩

/-- Settles O4: R140's list tells the outcome `RowRead.unknown` from the others. -/
theorem unknownEncodings : Obligations.UnknownEncodings := fun op next b2 b3 b4 b5 rest =>
  (decodeOpcode_read op (next :: b2 :: b3 :: b4 :: b5 :: rest)).unknown_iff.trans decide_eq_true_iff

end Sys2Proof.Machine
end

section
/-! The rows of R104, reading a whole instruction with them (30_encoding.md R103 to R105; 40_pipeline.md R167), and the
address of a memory operand (30_encoding.md R110 to R112). -/

namespace Sys2Proof.Machine

/-! ## Prefix rows -/

theorem State.setCtx_changes (s : State) (c : Ctx) : Changes { ctx := true } s { s with ctx := c } :=
  { Changes.refl s with ctx := nofun }

theorem exec_segPrefix {i : Instr} {g : Seg} (h : asSegPrefix i = some g) (s : State) : exec i s = .next (s.setOvr g) := by
  unfold asSegPrefix at h
  split at h
  iterate 4 cases h; rfl
  cases h

theorem exec_repPrefix {i : Instr} {p : Rep} (h : asRepPrefix i = some p) (s : State) : exec i s = .next (s.setRep p) := by
  unfold asRepPrefix at h
  split at h
  iterate 2 cases h; rfl
  cases h

/-- Settles O8: the rows are `State.setOvr` and `State.setRep`, and LOCK's leaves the state as it is. -/
theorem prefixRows : Obligations.PrefixRows := fun s =>
  ⟨fun _ g h => ⟨s.setOvr g, exec_segPrefix h s, rfl, rfl, rfl, rfl, rfl, s.setCtx_changes _⟩,
    fun _ p h => ⟨s.setRep p, exec_repPrefix h s, rfl, rfl, rfl, rfl, rfl, s.setCtx_changes _⟩,
    s, rfl, .refl s⟩

/-! ## Reading a whole instruction -/

theorem isString_eq_false {i : Instr} : i.isString = false ↔ asString i = none := by
  have same : i.isString = (asString i).isSome := by cases i <;> rfl
  rw [same, Option.isSome_eq_false_iff, Option.isNone_iff_eq_none]

section
variable {s : State} {i : Instr} {rest : List Byte} (n : Nat) (b : Byte)

/-- A row of R104 is one byte long. -/
theorem State.prefix_length (h : decode (s.window maxLength) = .ok i rest) (hp : i.isPrefix = true) :
    maxLength - rest.length = 1 := by
  have read : RowRead s.fetchByte.1 (s.fetchByte.2.window 5) (.ok i rest) := h ▸ decodeOpcode_read _ _
  cases read with
  | ok _ _ alone _ => rw [alone hp, List.drop_one, List.tail_cons, State.window_length]; rfl

theorem State.readInstr_unknown {op : Byte} (h : decode (s.window maxLength) = .unknown op) :
    s.readInstr (n + 1) b = .unknown op (s.consume (headLength op)) := by
  rw [State.readInstr, h]

theorem State.readInstr_prefix (h : decode (s.window maxLength) = .ok i rest) (hp : i.isPrefix = true) :
    ∃ t, exec i (s.consume 1) = .next t ∧ s.readInstr (n + 1) b = t.readInstr n s.fetchByte.1 := by
  obtain ⟨o, r, e⟩ := exec_prefix hp (s.consume 1)
  refine ⟨_, e, ?_⟩
  rw [State.readInstr, h]
  simp only [hp, if_true, State.prefix_length h hp, e]

theorem State.readInstr_repeated (h : decode (s.window maxLength) = .ok i rest) (hp : i.isPrefix = false)
    (hr : s.ctx.rep ≠ none) (hi : asString i = none) :
    s.readInstr (n + 1) b = .unknown s.fetchByte.1 (s.consume (headLength s.fetchByte.1)) := by
  rw [State.readInstr, h]
  simp [hp, isString_eq_false.2 hi, Option.isSome_iff_ne_none.2 hr]

theorem State.readInstr_instr (h : decode (s.window maxLength) = .ok i rest) (hp : i.isPrefix = false)
    (hr : s.ctx.rep = none ∨ asString i ≠ none) :
    s.readInstr (n + 1) b = .instr s.fetchByte.1 i (s.consume (maxLength - rest.length)) := by
  have allowed : (s.ctx.rep.isSome && !i.isString) = false := by
    rcases hr with hr | hi
    · simp [hr]
    · simp [mt isString_eq_false.1 hi]
  rw [State.readInstr, h]
  simp [hp, allowed]

end

/-! ## advance_instruction, outside a halt and a breakpoint -/

section
variable {s : State} {op : Byte} {i : Instr} {u : State} (halted : s.halted = false) (breakpoint : s.atBreakpoint = false)
include halted breakpoint

theorem State.advance_instr (h : s.begin.readInstr prefixLimit 0 = .instr op i u) : s.advance = u.execute op i := by
  simp only [State.advance, halted, breakpoint, h, Bool.false_eq_true, if_false]

theorem State.advance_unknown (h : s.begin.readInstr prefixLimit 0 = .unknown op u) :
    s.advance = .failed (.unknownOpcode op) u.rewind := by
  simp only [State.advance, halted, breakpoint, h, Bool.false_eq_true, if_false]

end

/-- Settles O7: a case of `State.readInstr` for each decoding, and of `State.advance` for each reading. -/
theorem prefixRead : Obligations.PrefixRead :=
  ⟨rfl,
    fun n b _ => ⟨rfl, fun _ => State.readInstr_unknown n b, fun _ _ h =>
      ⟨State.readInstr_prefix n b h, State.readInstr_repeated n b h, State.readInstr_instr n b h⟩⟩,
    fun _ halted breakpoint =>
      ⟨fun _ _ _ => State.advance_instr halted breakpoint, fun _ _ => State.advance_unknown halted breakpoint⟩⟩

/-! ## Operands -/

/-- Settles O15: the sum of the integers modulo 2^16 is the sum of the words. -/
theorem operandAddress : Obligations.OperandAddress := by
  intro s d o m n sum
  have disp : BitVec.ofInt 16 n = dispWord d := by
    cases d with
    | none => rfl
    | d8 b => rfl
    | d16 w => simp [n, dispWord]
  have two (a b : Reg16) : s.reg16 a + s.reg16 b + dispWord d = sum [a, b] := by
    simp [sum, BitVec.ofInt_add, disp]
  have one (a : Reg16) : s.reg16 a + dispWord d = sum [a] := by
    simp [sum, BitVec.ofInt_add, disp]
  refine ⟨two _ _, two _ _, two _ _, two _ _, one _, one _, one _, one _, rfl, fun g h => ?override, fun h => ?default⟩
  case override => rw [State.memSeg, State.ovr, h]; rfl
  case default =>
    rw [State.memSeg, State.ovr, h]
    cases m with
    | direct => rfl
    | base b => cases b <;> rfl

end Sys2Proof.Machine
end

section
/-! The instruction stream (40_pipeline.md R168, R184), and advance_instruction: the instruction it runs, the prefix bytes
before an unknown opcode, and what stops it before it decodes (30_encoding.md R105; 40_pipeline.md R167, R169 to R171,
R182). -/

namespace Sys2Proof.Machine

/-! ## The instruction stream -/

section
variable {s : State}

theorem State.fetchByte_of_nil (h : s.queue.items = []) :
    s.fetchByte = (s.nextByte, { s with queue := ⟨(s.queue.head + 1) % 4, []⟩, pc := s.pc + 1 }) := by
  simp only [State.fetchByte, BoundedQueue.pop, h]

theorem State.fetchByte_of_cons {b : Byte} {rest : List Byte} (h : s.queue.items = b :: rest) :
    s.fetchByte = (b, { s with queue := ⟨(s.queue.head + 1) % 4, rest⟩ }) := by
  simp only [State.fetchByte, BoundedQueue.pop, h]

end

/-- The byte of memory n places after the fetch pointer, the offset wrapping in the segment. -/
def State.byteAhead (s : State) (n : Nat) : Byte := s.memByte (phys (s.seg .cs) (s.pc + BitVec.ofNat 16 n))

/-- The next n bytes are the first n of the queue's and as many of memory's as one likes, if they are enough. -/
theorem State.window_eq_take {n m : Nat} (hm : n ≤ m) (s : State) :
    s.window n = (s.queue.items ++ (List.range m).map s.byteAhead).take n := by
  induction n generalizing m s with
  | zero => rfl
  | succ n ih =>
    rw [State.window]
    cases hq : s.queue.items with
    | cons b rest =>
      rw [State.fetchByte_of_cons hq, ih (Nat.le_of_succ_le hm)]
      rfl
    | nil =>
      obtain ⟨m, rfl⟩ := Nat.exists_eq_add_of_le' (show 1 ≤ m by omega)
      have first : s.byteAhead 0 = s.nextByte := by simp [State.byteAhead, State.nextByte]
      have later : s.fetchByte.2.byteAhead = fun k => s.byteAhead (k + 1) := by
        funext k
        have offset : s.pc + 1 + BitVec.ofNat 16 k = s.pc + BitVec.ofNat 16 (k + 1) := by bv_omega
        rw [State.fetchByte_of_nil hq]
        exact congrArg (fun o => s.memByte (phys (s.seg .cs) o)) offset
      rw [ih (Nat.le_of_succ_le_succ hm), later, State.fetchByte_of_nil hq, List.range_succ_eq_map]
      simp [first, Function.comp_def]

theorem State.items_fetchByte (s : State) : s.fetchByte.2.queue.items = s.queue.items.drop 1 := by
  cases hq : s.queue.items with
  | nil => rw [State.fetchByte_of_nil hq]; rfl
  | cons b rest => rw [State.fetchByte_of_cons hq]; rfl

/-- Reading a byte moves IP by one, whether pc moves or the queue gets shorter (10_state.md R27). -/
theorem State.ip_fetchByte (s : State) : s.fetchByte.2.ip = s.ip + 1 := by
  cases hq : s.queue.items with
  | nil =>
    rw [State.fetchByte_of_nil hq]
    simp [State.ip, BoundedQueue.size, hq]
  | cons b rest =>
    rw [State.fetchByte_of_cons hq]
    simp only [State.ip, BoundedQueue.size, hq, List.length_cons]
    bv_omega

theorem State.items_consume (n : Nat) (s : State) : (s.consume n).queue.items = s.queue.items.drop n := by
  induction n generalizing s with
  | zero => rfl
  | succ n ih => rw [State.consume, ih, State.items_fetchByte, List.drop_drop, Nat.add_comm]

theorem State.ip_consume (n : Nat) (s : State) : (s.consume n).ip = s.ip + BitVec.ofNat 16 n := by
  induction n generalizing s with
  | zero => simp [State.consume]
  | succ n ih =>
    rw [State.consume, ih, State.ip_fetchByte]
    bv_omega

theorem State.consume_frame (n : Nat) (s : State) :
    s.consume n = { s with pc := (s.consume n).pc, queue := (s.consume n).queue } := by
  obtain ⟨p, q, h⟩ := State.consume_eq n s
  rw [h]

/-- Settles O6: byte by byte. -/
theorem fetchOrder : Obligations.FetchOrder := fun s n =>
  ⟨s.window_eq_take n.le_refl, s.ip_consume n, s.items_consume n, s.consume_frame n⟩

/-- `s` and `t` read the same bytes, from the queue and from memory. -/
structure State.SameStream (s t : State) : Prop where
  queue : s.queue = t.queue
  pc : s.pc = t.pc
  segs : s.segs = t.segs
  mem : s.mem = t.mem

section
variable {s t : State} (h : s.SameStream t)
include h

theorem State.SameStream.window (n : Nat) : s.window n = t.window n := State.window_congr n h.queue h.pc h.segs h.mem

theorem State.SameStream.fetchByte : s.fetchByte.1 = t.fetchByte.1 :=
  (State.fetchByte_congr h.queue h.pc h.segs h.mem).1

theorem State.SameStream.consume (n : Nat) : (s.consume n).SameStream (t.consume n) := by
  obtain ⟨queue, pc⟩ := State.consume_congr n h.queue h.pc h.segs h.mem
  rw [s.consume_frame n, t.consume_frame n]
  exact ⟨queue, pc, h.segs, h.mem⟩

theorem State.SameStream.symm : t.SameStream s := ⟨h.queue.symm, h.pc.symm, h.segs.symm, h.mem.symm⟩

theorem State.SameStream.trans {u : State} (k : t.SameStream u) : s.SameStream u :=
  ⟨h.queue.trans k.queue, h.pc.trans k.pc, h.segs.trans k.segs, h.mem.trans k.mem⟩

end

theorem State.begin_sameStream (s : State) : s.begin.SameStream s := ⟨rfl, rfl, rfl, rfl⟩

theorem State.setCtx_sameStream (s : State) (c : Ctx) : s.SameStream { s with ctx := c } := ⟨rfl, rfl, rfl, rfl⟩

/-- The last of the next n + 1 bytes is the byte after the next n. -/
theorem State.getLastD_window (n : Nat) (b : Byte) (s : State) : (s.window (n + 1)).getLastD b = (s.consume n).fetchByte.1 := by
  induction n generalizing b s with
  | zero => rfl
  | succ n ih => rw [State.window, List.getLastD_cons, ih, State.consume]

/-! ## The instruction a call runs -/

/-- An instruction with no prefix before it is read and executed (40_pipeline.md R167). -/
theorem State.advance_decoded {s : State} {i : Instr} {rest : List Byte} (halted : s.halted = false)
    (breakpoint : s.atBreakpoint = false) (h : decode (s.window maxLength) = .ok i rest) (hp : i.isPrefix = false) :
    s.advance = match exec i (s.begin.consume (maxLength - rest.length)) with
      | .next t => .done t.finish
      | .fault r => .fault r
      | .refused r => .refused r := by
  rw [← State.window_begin] at h
  exact (prefixRead.2.2 s halted breakpoint).1 _ _ _ (State.readInstr_instr 65535 0 h hp (.inl rfl))

/-- With nothing on the agenda the step is `advance_instruction` (log 1). -/
theorem step_of_agenda_nil {s : State} (h : s.agenda = []) : step s = s.advance.outcome := by
  rw [step, h]

/-- Settles O5: the outcome of the call that runs the decoded instruction. -/
theorem stepRunsDecoded : Obligations.StepRunsDecoded := by
  intro s i rest agenda halted breakpoint h hp
  rw [step_of_agenda_nil agenda, State.advance_decoded halted breakpoint h hp]
  cases exec i (s.begin.consume (maxLength - rest.length)) <;> rfl

/-! ## Prefix bytes before an unknown opcode -/

/-- A prefix byte decodes to a row that sets the context alone, and that leaves a repeat prefix there if there was one or the
byte is one. -/
theorem decode_prefixByte {p : Byte} (h : p ∈ prefixBytes) : ∃ i, i.isPrefix = true ∧ (∀ bs, decode (p :: bs) = .ok i bs) ∧
    ∀ s : State, ∃ c : Ctx, exec i s = .next { s with ctx := c } ∧
      (s.ctx.rep ≠ none ∨ p = 0xF2 ∨ p = 0xF3 → c.rep ≠ none) := by
  simp only [prefixBytes, List.mem_cons, List.not_mem_nil, or_false] at h
  have kept {q : Byte} {r : Option Rep} (other : ¬(q = 0xF2 ∨ q = 0xF3)) : r ≠ none ∨ q = 0xF2 ∨ q = 0xF3 → r ≠ none :=
    fun h => h.resolve_right other
  rcases h with rfl | rfl | rfl | rfl | rfl | rfl | rfl
  · exact ⟨.segEs, rfl, fun _ => rfl, fun _ => ⟨_, rfl, kept (by decide)⟩⟩
  · exact ⟨.segCs, rfl, fun _ => rfl, fun _ => ⟨_, rfl, kept (by decide)⟩⟩
  · exact ⟨.segSs, rfl, fun _ => rfl, fun _ => ⟨_, rfl, kept (by decide)⟩⟩
  · exact ⟨.segDs, rfl, fun _ => rfl, fun _ => ⟨_, rfl, kept (by decide)⟩⟩
  · exact ⟨.lock, rfl, fun _ => rfl, fun _ => ⟨_, rfl, kept (by decide)⟩⟩
  · exact ⟨.repne, rfl, fun _ => rfl, fun _ => ⟨_, rfl, nofun⟩⟩
  · exact ⟨.repe, rfl, fun _ => rfl, fun _ => ⟨_, rfl, nofun⟩⟩

theorem State.readInstr_prefixByte (n : Nat) (b : Byte) {s : State} (h : s.fetchByte.1 ∈ prefixBytes) :
    ∃ u : State, s.readInstr (n + 1) b = u.readInstr n s.fetchByte.1 ∧ s.fetchByte.2.SameStream u ∧
      (s.ctx.rep ≠ none ∨ s.fetchByte.1 = 0xF2 ∨ s.fetchByte.1 = 0xF3 → u.ctx.rep ≠ none) := by
  obtain ⟨i, isPrefix, row, run⟩ := decode_prefixByte h
  obtain ⟨u, ran, read⟩ := State.readInstr_prefix n b (row (s.fetchByte.2.window 5)) isPrefix
  obtain ⟨c, sets, rep⟩ := run s.fetchByte.2
  cases sets.symm.trans ran
  rw [State.fetchByte_ctx] at rep
  exact ⟨_, read, s.fetchByte.2.setCtx_sameStream c, rep⟩

/-- Reading goes on after k prefix bytes with k fewer allowed, at the byte after them; the last prefix byte read is theirs, and
a repeat prefix among them is in the context. -/
theorem State.readInstr_prefixes (n k : Nat) {b : Byte} {s : State} (h : ∀ p ∈ s.window k, p ∈ prefixBytes) :
    ∃ t : State, s.readInstr (n + k) b = t.readInstr n ((s.window k).getLastD b) ∧ (s.consume k).SameStream t ∧
      (s.ctx.rep ≠ none ∨ 0xF2 ∈ s.window k ∨ 0xF3 ∈ s.window k → t.ctx.rep ≠ none) := by
  induction k generalizing b s with
  | zero => exact ⟨s, rfl, ⟨rfl, rfl, rfl, rfl⟩, fun h => h.resolve_right (by simp [State.window])⟩
  | succ k ih =>
    rw [State.window, List.forall_mem_cons] at h
    obtain ⟨first, others⟩ := h
    obtain ⟨u, read, same, rep⟩ := State.readInstr_prefixByte (n + k) b first
    rw [same.window] at others
    obtain ⟨t, reads, stream, reps⟩ := ih (b := s.fetchByte.1) others
    refine ⟨t, ?_, (same.consume k).trans stream, fun repeated => reps ?_⟩
    · rw [← Nat.add_assoc, read, reads, State.window, List.getLastD_cons, same.window]
    · rw [State.window, List.mem_cons, List.mem_cons, same.window] at repeated
      tauto

/-- In the state `s` the call fails with UnknownOpcode and rewinds (40_pipeline.md R182), which the step refuses (log 12). -/
def State.FailsUnknown (s : State) (op : Byte) : Prop :=
  (∃ t, s.advance = .failed (.unknownOpcode op) t ∧ LandsAt t s.ip ∧
    t = { s with pc := t.pc, queue := t.queue, tstate := t.tstate, deliveryPending := t.deliveryPending
                 bpSkip := false, ctx := Ctx.idle }) ∧
  (s.agenda = [] → step s = .refused (.unknownOpcode op))

section
variable {s : State} {op : Byte} (halted : s.halted = false) (breakpoint : s.atBreakpoint = false)
include halted breakpoint

/-- The rewind undoes all that reading has changed, since reading leaves IP_start alone. -/
theorem State.failsUnknown_of_readInstr {u : State} (h : s.begin.readInstr prefixLimit 0 = .unknown op u) :
    s.FailsUnknown op := by
  have failed := State.advance_unknown halted breakpoint h
  have reads := s.begin.readInstr_after prefixLimit 0
  rw [h] at reads
  obtain ⟨p, q, o, r, rfl⟩ := reads
  refine ⟨⟨_, failed, State.jump_landsAt _ s.ip, rfl⟩, fun agenda => ?_⟩
  rw [step_of_agenda_nil agenda, failed]
  rfl

/-- What reading comes to after k prefix bytes decides. -/
theorem State.failsUnknown_of_prefixes {k n : Nat} (limit : prefixLimit = n + k) (h : ∀ p ∈ s.window k, p ∈ prefixBytes)
    (fails : ∀ t : State, (s.consume k).SameStream t → (0xF2 ∈ s.window k ∨ 0xF3 ∈ s.window k → t.ctx.rep ≠ none) →
      ∃ u, t.readInstr n ((s.window k).getLastD 0) = .unknown op u) : s.FailsUnknown op := by
  have same := s.begin_sameStream
  rw [← same.window] at h fails
  obtain ⟨t, read, stream, rep⟩ := State.readInstr_prefixes n k (b := 0) h
  obtain ⟨u, unknown⟩ := fails t ((same.consume k).symm.trans stream) fun r => rep (.inr r)
  refine State.failsUnknown_of_readInstr halted breakpoint (u := u) ?_
  rw [limit, read, unknown]

end

/-- Settles O9: each clause is a way in which reading ends after its prefix bytes. -/
theorem unknownRewinds : Obligations.UnknownRewinds := by
  refine ⟨rfl, fun s halted breakpoint => ⟨fun op u => State.failsUnknown_of_readInstr halted breakpoint,
    fun k hk prefixes => ⟨fun op row => ?noRow, fun i rest row hp hi repeated => ?noString⟩, fun prefixes => ?limit⟩⟩
  case noRow =>
    obtain ⟨n, limit⟩ := Nat.exists_eq_add_of_lt hk
    refine State.failsUnknown_of_prefixes (n := n + 1) halted breakpoint (by omega) prefixes fun t same _ => ?_
    rw [same.window] at row
    exact ⟨_, State.readInstr_unknown n _ row⟩
  case noString =>
    obtain ⟨n, limit⟩ := Nat.exists_eq_add_of_lt hk
    refine State.failsUnknown_of_prefixes (n := n + 1) halted breakpoint (by omega) prefixes fun t same rep => ?_
    rw [same.window] at row
    rw [same.fetchByte]
    exact ⟨_, State.readInstr_repeated n _ row hp (rep repeated) hi⟩
  case limit =>
    have last : (s.window prefixLimit).getLastD 0 = (s.consume (prefixLimit - 1)).fetchByte.1 := s.getLastD_window 65535 0
    refine State.failsUnknown_of_prefixes (n := 0) halted breakpoint (Nat.zero_add _).symm prefixes fun t _ _ => ⟨t, ?_⟩
    rw [last]
    rfl

/-! ## A halt and a breakpoint -/

section
variable {s : State}

theorem State.advance_halted (h : s.halted = true) : s.advance = .done s.haltStep := by
  rw [State.advance, if_pos h]

theorem State.haltStep_nmi (h : s.nmiLatched = true) :
    s.haltStep = { ({ s with halted := false, nmiLatched := false } : State).interrupt 2 with reply := .okay } := by
  simp only [State.haltStep, State.externalPending, State.acceptExternal, h, Bool.true_or, if_true]

theorem State.haltStep_intr (hn : s.nmiLatched = false) (hi : s.intr = true) (hf : s.flag .ifl = true) :
    s.haltStep = { ({ s with halted := false } : State).interrupt s.intaVector with reply := .okay } := by
  simp only [State.haltStep, State.externalPending, State.acceptExternal, hn, hi, hf, Bool.false_or, Bool.and_self,
    Bool.false_eq_true, if_true, if_false]

theorem State.haltStep_idle (hn : s.nmiLatched = false) (h : s.intr = false ∨ s.flag .ifl = false) :
    s.haltStep = { s with reply := .halted } := by
  have quiet : s.externalPending = false := by
    rw [State.externalPending, hn, Bool.false_or, Bool.and_eq_false_iff]
    exact h
  rw [State.haltStep, quiet]
  rfl

/-- The state in which a call stops at a breakpoint (40_pipeline.md R171). -/
def State.stopped (s : State) : State := { s with bpSkip := true, reply := .breakpoint }

theorem State.advance_breakpoint (halted : s.halted = false) (hs : s.bpSkip = false)
    (h : phys (s.seg .cs) s.ip ∈ s.breakpoints) : s.advance = .done s.stopped := by
  have stops : s.atBreakpoint = true := by simp [State.atBreakpoint, h, hs]
  simp only [State.advance, halted, stops, Bool.false_eq_true, if_false, if_true, State.stopped]

theorem State.atBreakpoint_stopped (s : State) : s.stopped.atBreakpoint = false := Bool.and_false _

theorem State.stopped_sameStream (s : State) : s.stopped.SameStream s := ⟨rfl, rfl, rfl, rfl⟩

/-- The call after a breakpoint runs the instruction there. -/
theorem State.advance_stopped {i : Instr} {rest : List Byte} {t : State} (halted : s.halted = false)
    (h : decode (s.window maxLength) = .ok i rest) (hp : i.isPrefix = false)
    (ran : exec i (s.stopped.begin.consume (maxLength - rest.length)) = .next t) : s.stopped.advance = .done t.finish := by
  rw [← s.stopped_sameStream.window] at h
  rw [State.advance_decoded (s := s.stopped) halted s.atBreakpoint_stopped h hp, ran]

end

/-- Settles O10: the branches of `State.haltStep` are entries of the interrupt or nothing, and after a breakpoint the decoding
is that of the state that stopped there. -/
theorem haltAndBreakpoint : Obligations.HaltAndBreakpoint := by
  refine fun s wf => ⟨fun halted nmi => ?nmi, fun halted noNmi intr enabled => ?intr, fun halted noNmi quiet => ?halted,
    fun halted noSkip listed => ?breakpoint⟩
  case nmi =>
    obtain ⟨entered, changes⟩ := ({ s with halted := false, nmiLatched := false } : State).interrupt_law 2 wf
    refine ⟨_, State.advance_halted halted, ?_⟩
    rw [State.haltStep_nmi nmi]
    exact ⟨entered, changes.rest.1, rfl⟩
  case intr =>
    obtain ⟨entered, changes⟩ := ({ s with halted := false } : State).interrupt_law s.intaVector wf
    obtain ⟨_, _, kept, _⟩ := changes.rest
    refine ⟨_, State.advance_halted halted, ?_⟩
    rw [State.haltStep_intr noNmi intr enabled]
    exact ⟨entered, kept.trans intr, rfl⟩
  case halted => rw [State.advance_halted halted, State.haltStep_idle noNmi quiet]
  case breakpoint =>
    exact ⟨State.advance_breakpoint halted noSkip listed, s.atBreakpoint_stopped, rfl,
      fun _ _ _ => State.advance_stopped halted⟩

end Sys2Proof.Machine
end

section
/-! The bounded queue's operations in closed form, and the cycle engine (40_pipeline.md R150 to R158, R162 to R166). -/

namespace Sys2Proof.Machine

/-! ## The queue -/

namespace BoundedQueue

variable {α : Type} {n : Nat} {q : BoundedQueue α n}

/-! ### Slots -/

/-- Element j is j slots after head (40_pipeline.md R151). -/
theorem slot_head_add {j : Nat} (hh : q.head < n) (hj : j < n) : q.slot ((q.head + j) % n) = q.items[j]? := by
  have index : ((q.head + j) % n + n - q.head) % n = j := by
    rcases Nat.lt_or_ge (q.head + j) n with below | wraps
    · rw [Nat.mod_eq_of_lt below, show q.head + j + n - q.head = j + n by omega, Nat.add_mod_right, Nat.mod_eq_of_lt hj]
    · rw [Nat.mod_eq_sub_mod wraps, Nat.mod_eq_of_lt (show q.head + j - n < n by omega),
        show q.head + j - n + n - q.head = j by omega, Nat.mod_eq_of_lt hj]
  rw [slot, index]

theorem slot_head (hh : q.head < n) : q.slot q.head = q.items.head? := by
  have first := slot_head_add (q := q) (j := 0) hh (by omega)
  rwa [Nat.add_zero, Nat.mod_eq_of_lt hh, ← List.head?_eq_getElem?] at first

theorem slot_tail (hh : q.head < n) (room : q.items.length < n) : q.slot q.tail = none :=
  (slot_head_add hh room).trans (List.getElem?_eq_none (Nat.le_refl _))

/-- The slot a pop leaves is the last one after the new head. -/
theorem slot_head_of_popped {rest : List α} (hh : q.head < n) (room : rest.length < n) :
    (⟨(q.head + 1) % n, rest⟩ : BoundedQueue α n).slot q.head = none := by
  have around : ((q.head + 1) % n + (n - 1)) % n = q.head := by
    rw [Nat.mod_add_mod, show q.head + 1 + (n - 1) = q.head + n by omega, Nat.add_mod_right, Nat.mod_eq_of_lt hh]
  have last := slot_head_add (q := (⟨(q.head + 1) % n, rest⟩ : BoundedQueue α n)) (j := n - 1)
    (Nat.mod_lt _ (by omega)) (by omega)
  rw [around] at last
  exact last.trans (List.getElem?_eq_none (by dsimp only; omega))

/-! ### The tail -/

theorem tail_append (vs : List α) :
    ({ q with items := q.items ++ vs } : BoundedQueue α n).tail = (q.tail + vs.length) % n := by
  simp [tail, size, Nat.add_assoc]

theorem tail_of_popped {b : α} {rest : List α} (h : q.items = b :: rest) :
    (⟨(q.head + 1) % n, rest⟩ : BoundedQueue α n).tail = q.tail := by
  rw [tail, tail, size, size, h, List.length_cons, Nat.mod_add_mod, Nat.add_assoc, Nat.add_comm 1]

theorem tail_of_drained (k : Nat) :
    (⟨(q.head + min k q.items.length) % n, q.items.drop k⟩ : BoundedQueue α n).tail = q.tail := by
  have whole : q.head + min k q.items.length + (q.items.length - k) = q.head + q.items.length := by omega
  rw [tail, tail, size, size, List.length_drop, Nat.mod_add_mod, whole]

/-! ### One element -/

theorem push_of_length_eq (h : q.items.length = n) (v : α) : q.push v = none := by
  simp [push, full, size, h]

theorem push_of_length_ne (h : q.items.length ≠ n) (v : α) : q.push v = some { q with items := q.items ++ [v] } := by
  simp [push, full, size, h]

theorem pop_of_cons {b : α} {rest : List α} (h : q.items = b :: rest) : q.pop = some (b, ⟨(q.head + 1) % n, rest⟩) := by
  rw [pop, h]

theorem pop_of_nil (h : q.items = []) : q.pop = none := by
  rw [pop, h]

/-! ### Several elements -/

/-- `drain_part(k)` takes the first k elements, or all there are (40_pipeline.md R156). -/
theorem drainPart_eq (k : Nat) (hh : q.head < n) :
    q.drainPart k = (q.items.take k, ⟨(q.head + min k q.items.length) % n, q.items.drop k⟩) := by
  induction k generalizing q with
  | zero => simp [drainPart, Nat.mod_eq_of_lt hh]
  | succ k ih =>
    cases items : q.items with
    | nil =>
      have stays : (⟨(q.head + min (k + 1) 0) % n, []⟩ : BoundedQueue α n) = q := by
        rw [Nat.min_zero, Nat.add_zero, Nat.mod_eq_of_lt hh, ← items]
      simp only [drainPart, pop_of_nil items, List.take_nil, List.drop_nil, List.length_nil, stays]
    | cons b rest =>
      have moved : ((q.head + 1) % n + min k rest.length) % n = (q.head + min (k + 1) (rest.length + 1)) % n := by
        rw [Nat.mod_add_mod, Nat.add_min_add_right, Nat.add_assoc, Nat.add_comm 1]
      have taken := ih (q := ⟨(q.head + 1) % n, rest⟩) (Nat.mod_lt _ (by omega))
      rw [moved] at taken
      simp only [drainPart, pop_of_cons items, taken, List.take_succ_cons, List.drop_succ_cons, List.length_cons]

/-- `try_extend(seq)` appends what fits (40_pipeline.md R158). -/
theorem tryExtend_eq (vs : List α) (h : q.items.length ≤ n) : q.tryExtend vs =
    (min vs.length (n - q.items.length), { q with items := q.items ++ vs.take (n - q.items.length) }) := by
  induction vs generalizing q with
  | nil => simp [tryExtend]
  | cons v vs ih =>
    rcases Nat.eq_or_lt_of_le h with isFull | room
    · simp [tryExtend, push_of_length_eq isFull, isFull]
    · obtain ⟨left, hl⟩ : ∃ left, n - q.items.length = left + 1 := ⟨n - q.items.length - 1, by omega⟩
      have hl' : n - (q.items ++ [v]).length = left := by rw [List.length_append, List.length_singleton]; omega
      rw [tryExtend, push_of_length_ne (Nat.ne_of_lt room)]
      simp only [ih (q := { q with items := q.items ++ [v] }) (by simpa using room), hl', hl]
      simp [Nat.add_min_add_right]

theorem drain_eq (hh : q.head < n) : q.drain = (q.items, ⟨q.tail, []⟩) := by
  rw [drain, size, drainPart_eq _ hh, Nat.min_self, List.take_length, List.drop_length, tail, size]

theorem extend_of_gt {vs : List α} (h : n < q.items.length + vs.length) : q.extend vs = none := if_pos h

theorem extend_of_le {vs : List α} (h : q.items.length + vs.length ≤ n) :
    q.extend vs = some { q with items := q.items ++ vs } := by
  have taken : q.extend vs = some (q.tryExtend vs).2 := if_neg (Nat.not_lt.2 h)
  rw [taken, tryExtend_eq vs (by omega), List.take_of_length_le (by omega)]

end BoundedQueue

/-- Settles O56: each operation in closed form, and the slots counted from head. -/
theorem queueLaws : Obligations.QueueLaws := by
  intro n q v vs k wf
  obtain ⟨hh, bound⟩ := BoundedQueue.wf_iff.1 wf
  have part := BoundedQueue.drainPart_eq k hh
  have fits : (q.items ++ vs.take (n - q.items.length)).length ≤ n := by simp; omega
  have taken : (vs.take (n - q.items.length)).length = min vs.length (n - q.items.length) := by simp [Nat.min_comm]
  rw [BoundedQueue.drain_eq hh, BoundedQueue.tryExtend_eq vs bound]
  refine ⟨fun full => BoundedQueue.push_of_length_eq full v, fun room => ?push, fun empty => ?empty,
    fun b rest items => ?front, fun b rest items => ?back, ?part, ?rest, BoundedQueue.wf_drainPart k wf, ?partHead, ?partTail, rfl, rfl, rfl, ?drainTail,
    BoundedQueue.extend_of_gt, fun room => ?extend, rfl, rfl, rfl, ?extendedTail, BoundedQueue.wf_iff.2 ⟨hh, fits⟩,
    fun j hj => BoundedQueue.slot_head_add hh (by omega)⟩
  case push =>
    have pushed := BoundedQueue.push_of_length_ne (Nat.ne_of_lt room) v
    have newest : ({ q with items := q.items ++ [v] } : BoundedQueue Byte n).slot q.tail = some v :=
      (BoundedQueue.slot_head_add (q := { q with items := q.items ++ [v] }) hh room).trans List.getElem?_concat_length
    exact ⟨_, pushed, rfl, rfl, BoundedQueue.wf_push wf pushed, BoundedQueue.tail_append [v], BoundedQueue.slot_tail hh room,
      newest⟩
  case empty =>
    rw [BoundedQueue.pop_of_nil empty, BoundedQueue.peek, BoundedQueue.back, empty]
    exact ⟨rfl, rfl, rfl⟩
  case front =>
    have popped := BoundedQueue.pop_of_cons items
    have shorter : rest.length < n := by rw [items, List.length_cons] at bound; omega
    have first : q.items.head? = some b := by rw [items, List.head?_cons]
    exact ⟨first, (BoundedQueue.slot_head hh).trans first, _, popped, rfl, rfl, BoundedQueue.tail_of_popped items,
      BoundedQueue.wf_pop wf popped, BoundedQueue.slot_head_of_popped hh shorter⟩
  case back => rw [BoundedQueue.back, items, List.getLast?_concat]
  case part | rest | partHead => rw [part]
  case partTail => exact part ▸ BoundedQueue.tail_of_drained k
  case drainTail => exact Nat.mod_mod _ n
  case extend => exact ⟨_, BoundedQueue.extend_of_le room, rfl, rfl, BoundedQueue.tail_append vs,
    BoundedQueue.wf_iff.2 ⟨hh, by simpa using room⟩⟩
  case extendedTail => rw [← taken]; exact BoundedQueue.tail_append _

/-! ## The cycle engine -/

section
variable {s : State}

theorem State.deliver_of_full (h : s.queue.items.length = 4) : s.deliver = { s with deliveryPending := true } := by
  rw [State.deliver, BoundedQueue.push_of_length_eq h]

theorem State.deliver_of_room (h : s.queue.items.length ≠ 4) : s.deliver = { s with
    queue := { s.queue with items := s.queue.items ++ [s.nextByte] }, pc := s.pc + 1, deliveryPending := false } := by
  rw [State.deliver, BoundedQueue.push_of_length_ne h]

end

theorem State.deliver_frame (s : State) : s.deliver = { s with
    queue := s.deliver.queue, pc := s.deliver.pc, deliveryPending := s.deliver.deliveryPending } := by
  rw [State.deliver]; split <;> rfl

theorem State.tick_frame (s : State) : s.tick = { s with
    queue := s.tick.queue, pc := s.tick.pc, tstate := s.tick.tstate, deliveryPending := s.tick.deliveryPending } := by
  rw [State.tick]
  cases s.tstate with
  | idle | t0 | t1 | t2 => rfl
  | t3 => dsimp only; rw [State.deliver_frame]
  | t4 => dsimp only; split <;> [rw [State.deliver_frame]; rfl]

/-- The byte at CS:pc enters the queue, or the engine stalls (40_pipeline.md R163). -/
theorem State.deliver_delivers (s : State) :
    (s.queue.items.length ≠ 4 → s.deliver.queue.items = s.queue.items ++ [s.memByte (phys (s.seg .cs) s.pc)] ∧
      s.deliver.pc = s.pc + 1 ∧ s.deliver.deliveryPending = false) ∧
    (s.queue.items.length = 4 → s.deliver.queue = s.queue ∧ s.deliver.pc = s.pc ∧ s.deliver.deliveryPending = true) := by
  constructor
  · intro room
    rw [State.deliver_of_room room]
    exact ⟨rfl, rfl, rfl⟩
  · intro full
    rw [State.deliver_of_full full]
    exact ⟨rfl, rfl, rfl⟩

/-- Settles O57: the T-state says which branch of `State.tick` the call takes, and `State.deliver` is the delivery. -/
theorem cycleEngine : Obligations.CycleEngine := by
  intro s
  dsimp only
  rw [State.stepCycle]
  refine ⟨fun h => ?idle, fun h => ?t0, fun h => ?t1, fun h => ?t2, fun h => ?t3, fun h pending => ?stalled,
    fun h served => ?t4, ?frame⟩
  case idle | t0 | t1 | t2 =>
    rw [State.tick, h]
    exact ⟨rfl, rfl, rfl, rfl⟩
  case t3 =>
    rw [State.tick, h]
    exact ⟨congrArg State.tstate (State.deliver_frame _), ({ s with tstate := .t4 } : State).deliver_delivers⟩
  case stalled =>
    rw [State.tick, h]
    dsimp only
    rw [if_pos pending]
    exact ⟨(congrArg State.tstate s.deliver_frame).trans h, s.deliver_delivers⟩
  case t4 =>
    rw [State.tick, h]
    dsimp only
    rw [if_neg (Bool.eq_false_iff.1 served)]
    exact ⟨rfl, rfl, rfl, rfl⟩
  case frame =>
    rw [s.tick_frame]
    exact ⟨rfl, rfl, rfl, rfl, rfl, rfl, rfl, rfl, rfl, rfl, rfl, fun _ => rfl⟩

end Sys2Proof.Machine
end

section
/-! Data transfer: what reading a source leaves, what a place or the stack holds after a write, and each instruction of
41_data_transfer.md as a read of its source and a write of its destination. -/

namespace Sys2Proof.Machine

/-! ## Reading a source -/

/-- The state after a byte source is read. -/
def State.afterSrc8 (s : State) : Src8 → State
  | .place e => (s.readRm8 e).2
  | .imm _ => s

/-- The state after a word source is read. -/
def State.afterSrc16 (s : State) : Src16 → State
  | .place e => (s.readRm16 e).2
  | .imm _ | .seg _ => s

section
variable (s : State)

theorem State.afterSrc8_changes (src : Src8) : Changes { last := s.lastSrc8 src } s (s.afterSrc8 src) := by
  cases src with
  | place e => exact s.readRm8_changes e
  | imm => exact .refl s

theorem State.afterSrc16_changes (src : Src16) : Changes { last := s.lastSrc16 src } s (s.afterSrc16 src) := by
  cases src with
  | place e => exact s.readRm16_changes e
  | imm | seg => exact .refl s

@[simp] theorem State.afterSrc8_mem (src : Src8) : (s.afterSrc8 src).mem = s.mem := by
  cases src with
  | place e => exact s.readLoc8_mem (s.loc e)
  | imm => rfl

@[simp] theorem State.afterSrc16_mem (src : Src16) : (s.afterSrc16 src).mem = s.mem := by
  cases src with
  | place e => exact s.readLoc16_mem (s.loc e)
  | imm | seg => rfl

/-! ## Contents after a write -/

theorem State.at8_setReg8 (r : Reg8) (v : Byte) (l : Loc Reg8) :
    (s.setReg8 r v).at8 l = if l = .reg r then v else s.at8 l := by
  cases l with
  | reg x =>
    simp only [Loc.reg.injEq]
    exact s.reg8_setReg8 r v x
  | mem x o => rfl

theorem State.at16_setReg16 (r : Reg16) (v : Word) (l : Loc Reg16) :
    (s.setReg16 r v).at16 l = if l = .reg r then v else s.at16 l := by
  cases l with
  | reg x =>
    simp only [Loc.reg.injEq]
    exact s.reg16_setReg16 r v x
  | mem x o => rfl

theorem State.setInhibit_changes : Changes { inhibit := true } s { s with inhibit := true } :=
  { Changes.refl s with inhibit := nofun }

/-! ## Shared operations -/

/-- A place takes the value of a byte source, and nothing else changes (41_data_transfer.md R201 to R206). -/
theorem State.writeLoc8_afterSrc8_law (l : Loc Reg8) (src : Src8) (v : Byte) (hw : Memory.wf s.mem = true) :
    ((s.afterSrc8 src).writeLoc8 l v).at8 l = v ∧
    Changes { halves := l.halves, stores := l.stores8, last := l.last8.or (s.lastSrc8 src) } s
      ((s.afterSrc8 src).writeLoc8 l v) := by
  have wf : Memory.wf (s.afterSrc8 src).mem = true := by rwa [s.afterSrc8_mem]
  exact ⟨State.at8_writeLoc8 _ l v wf, ((s.afterSrc8_changes src).trans (State.writeLoc8_changes _ l v wf)).mono
    (by constructor <;> simp [Effect.andThen])⟩

/-- A place takes the value of a word source, and nothing else changes (41_data_transfer.md R201 to R207). -/
theorem State.writeLoc16_afterSrc16_law (l : Loc Reg16) (src : Src16) (v : Word) (hw : Memory.wf s.mem = true) :
    ((s.afterSrc16 src).writeLoc16 l v).at16 l = v ∧
    Changes { regs := l.regs, stores := l.stores16, last := l.last16.or (s.lastSrc16 src) } s
      ((s.afterSrc16 src).writeLoc16 l v) := by
  have wf : Memory.wf (s.afterSrc16 src).mem = true := by rwa [s.afterSrc16_mem]
  exact ⟨State.at16_writeLoc16 _ l v wf, ((s.afterSrc16_changes src).trans (State.writeLoc16_changes _ l v wf)).mono
    (by constructor <;> simp [Effect.andThen])⟩

/-- A push after a read: SP and the slot are those of the state before the read (41_data_transfer.md R210, R214). -/
theorem State.push16_afterSrc16_law (src : Src16) (v : Word) (hw : Memory.wf s.mem = true) :
    ((s.afterSrc16 src).push16 v).reg16 .sp = s.reg16 .sp - 2 ∧
    ((s.afterSrc16 src).push16 v).wordAt (s.seg .ss) (s.reg16 .sp - 2) = v ∧
    Changes { regs := [.sp]
              stores := [phys (s.seg .ss) (s.reg16 .sp - 2), phys (s.seg .ss) (s.reg16 .sp - 1)]
              last := some (phys (s.seg .ss) (s.reg16 .sp - 1)) } s ((s.afterSrc16 src).push16 v) := by
  have wf : Memory.wf (s.afterSrc16 src).mem = true := by rwa [s.afterSrc16_mem]
  have read := s.afterSrc16_changes src
  have ss : (s.afterSrc16 src).seg .ss = s.seg .ss := read.segs .ss List.not_mem_nil
  have sp : (s.afterSrc16 src).reg16 .sp = s.reg16 .sp := read.regs .sp List.not_mem_nil nofun
  rw [← ss, ← sp]
  exact ⟨by rw [State.reg16_push16, if_pos rfl], State.wordAt_push16 _ v wf,
    (read.trans (State.push16_changes _ v wf)).mono (by constructor <;> simp [Effect.andThen])⟩

/-- A load of a segment register sets `inhibit` (41_data_transfer.md R208). -/
theorem State.loadSeg_changes (g : Seg) (e : Rm16) :
    Changes { segs := [g], last := (s.loc e).last16, inhibit := true } s (s.loadSeg g e) :=
  (((s.readRm16_changes e).trans (State.setSeg_changes _ g _)).trans (State.setInhibit_changes _)).mono
    (by constructor <;> simp [Effect.andThen])

/-- A pop into a segment register sets `inhibit` (41_data_transfer.md R216). -/
theorem State.popSeg_changes (g : Seg) :
    Changes { regs := [.sp], segs := [g], last := some (phys (s.seg .ss) (s.reg16 .sp + 1)), inhibit := true } s
      (s.popSeg g) :=
  ((s.pop16_changes.trans (State.setSeg_changes _ g _)).trans (State.setInhibit_changes _)).mono
    (by constructor <;> simp [Effect.andThen])

theorem State.readFar_value (m : MemOp) :
    (s.readFar m).1 = (s.wordAt (s.memSeg m) (s.ea m), s.wordAt (s.memSeg m) (s.ea m + 2)) := rfl

theorem State.readFar_changes (m : MemOp) :
    Changes { last := some (phys (s.memSeg m) (s.ea m + 3)) } s (s.readFar m).2 := by
  have third : s.ea m + 2 + 1 = s.ea m + 3 := BitVec.add_assoc ..
  rw [← third]
  exact ((s.read16_changes _ _).trans (State.read16_changes _ _ _)).mono (by constructor <;> simp [Effect.andThen])

/-- LDS and LES: a register and a segment register take the far pointer at the operand (41_data_transfer.md R223, R224). -/
theorem State.loadFar_law (g : Reg16) (m : MemOp) (x : Seg) :
    (s.loadFar g m x).reg16 g = s.wordAt (s.memSeg m) (s.ea m) ∧
    (s.loadFar g m x).seg x = s.wordAt (s.memSeg m) (s.ea m + 2) ∧
    Changes { regs := [g], segs := [x], last := some (phys (s.memSeg m) (s.ea m + 3)) } s (s.loadFar g m x) := by
  refine ⟨?_, State.seg_setSeg_self _ x _,
    (((s.readFar_changes m).trans (State.setReg16_changes _ g _)).trans (State.setSeg_changes _ x _)).mono
      (by constructor <;> simp [Effect.andThen])⟩
  rw [State.loadFar, State.reg16_setSeg, State.reg16_setReg16_self, State.readFar_value]

end

/-! ## Instructions -/

section
variable {i : Instr} (s : State)

theorem exec_move8 {dst : Rm8} {src : Src8} (h : asMove8 i = some (dst, src)) :
    exec i s = .next ((s.afterSrc8 src).writeLoc8 (s.loc dst) (s.src8 src)) := by
  cases i with
  | movEbGb | movEbIb | movR8Ib | movAlOb | movObAl => cases h; rfl
  | movGbEb g e => cases h; cases e <;> rfl
  | _ => cases h

theorem exec_move16 {dst : Rm16} {src : Src16} (h : asMove16 i = some (dst, src)) :
    exec i s = .next ((s.afterSrc16 src).writeLoc16 (s.loc dst) (s.src16 src)) := by
  cases i with
  | movEwGw | movEwIw | movR16Iw | movAxOw | movOwAx | movEwSw => cases h; rfl
  | movGwEw g e => cases h; cases e <;> rfl
  | _ => cases h

theorem exec_loadSeg {g : Seg} {e : Rm16} (h : asLoadSeg i = some (g, e)) : exec i s = .next (s.loadSeg g e) := by
  cases i with
  | movEsEw | movSsEw | movDsEw => cases h; rfl
  | _ => cases h

theorem exec_popSeg {g : Seg} (h : asPopSeg i = some g) : exec i s = .next (s.popSeg g) := by
  cases i with
  | popEs | popSs | popDs => cases h; rfl
  | _ => cases h

theorem exec_push {src : Src16} (h : asPush i = some src) : exec i s =
    .next ((s.afterSrc16 src).push16 (if src = .place (.reg .sp) then s.reg16 .sp - 2 else s.src16 src)) := by
  have register (r : Reg16) : s.pushReg r =
      s.push16 (if (Src16.place (.reg r)) = .place (.reg .sp) then s.reg16 .sp - 2 else s.reg16 r) := by
    simp only [Src16.place.injEq, Rm.reg.injEq]; rfl
  cases i with
  | pushEs | pushCs | pushSs | pushDs => cases h; rfl
  | pushR16 r => cases h; exact congrArg _ (register r)
  | pushEw e =>
    cases h
    cases e with
    | reg r => exact congrArg _ (register r)
    | mem m => rfl
  | _ => cases h

theorem exec_pop {e : Rm16} (h : asPop i = some e) : exec i s = .next (s.pop16.2.writeLoc16 (s.loc e) s.pop16.1) := by
  cases i with
  | popR16 | popEw => cases h; rfl
  | _ => cases h

/-- The operand takes the register's value, then the register the operand's; where both are one register, the two values are
one (41_data_transfer.md R218). -/
theorem exec_xchgEbGb_swaps (e : Rm8) (g : Reg8) (hw : Memory.wf s.mem = true) :
    ∃ t, exec (.xchgEbGb e g) s = .next t ∧ t.at8 (s.loc e) = s.reg8 g ∧ t.reg8 g = s.at8 (s.loc e) ∧
      Changes { halves := g :: (s.loc e).halves, stores := (s.loc e).stores8, last := (s.loc e).last8 } s t := by
  have wf : Memory.wf (s.readRm8 e).2.mem = true := by rwa [State.readRm8, State.readLoc8_mem]
  have written := (s.readRm8_changes e).trans (State.writeLoc8_changes _ (s.loc e) (s.reg8 g) wf)
  refine ⟨_, rfl, ?place, ?register,
    (written.trans (State.setReg8_changes _ g _)).mono (by constructor <;> simp [Effect.andThen, or_comm])⟩
  case place =>
    rw [State.at8_setReg8, State.at8_writeLoc8 _ _ _ wf, s.readRm8_value e]
    split
    · next same => rw [same]; rfl
    · rfl
  case register => rw [State.reg8_setReg8_self, s.readRm8_value e]

/-- The words of a place and a register are swapped as bytes are (41_data_transfer.md R218). -/
theorem exec_xchgEwGw_swaps (e : Rm16) (g : Reg16) (hw : Memory.wf s.mem = true) :
    ∃ t, exec (.xchgEwGw e g) s = .next t ∧ t.at16 (s.loc e) = s.reg16 g ∧ t.reg16 g = s.at16 (s.loc e) ∧
      Changes { regs := g :: (s.loc e).regs, stores := (s.loc e).stores16, last := (s.loc e).last16 } s t := by
  have wf : Memory.wf (s.readRm16 e).2.mem = true := by rwa [State.readRm16, State.readLoc16_mem]
  have written := (s.readRm16_changes e).trans (State.writeLoc16_changes _ (s.loc e) (s.reg16 g) wf)
  refine ⟨_, rfl, ?place, ?register,
    (written.trans (State.setReg16_changes _ g _)).mono (by constructor <;> simp [Effect.andThen, or_comm])⟩
  case place =>
    rw [State.at16_setReg16, State.at16_writeLoc16 _ _ _ wf, s.readRm16_value e]
    split
    · next same => rw [same]; rfl
    · rfl
  case register => rw [State.reg16_setReg16_self, s.readRm16_value e]

end

end Sys2Proof.Machine
end

section
/-! The statements of data transfer: MOV, the stack, XCHG, and the loads of an address or a table entry
(41_data_transfer.md). -/

namespace Sys2Proof.Machine

/-- Settles O31: each form reads its source and writes its place. -/
theorem moves : Obligations.Moves :=
  ⟨fun _ dst src s h hw => ⟨_, exec_move8 s h, s.writeLoc8_afterSrc8_law (s.loc dst) src _ hw⟩,
    fun _ dst src s h hw => ⟨_, exec_move16 s h, s.writeLoc16_afterSrc16_law (s.loc dst) src _ hw⟩⟩

/-- Settles O32: the forms are `State.loadSeg` and `State.popSeg`. -/
theorem segmentLoads : Obligations.SegmentLoads := by
  constructor
  · intro i g e s h
    refine ⟨_, exec_loadSeg s h, ?_, rfl, s.loadSeg_changes g e⟩
    rw [← s.readRm16_value e]
    exact State.seg_setSeg_self _ g _
  · intro i g s h
    refine ⟨_, exec_popSeg s h, State.seg_setSeg_self _ g _, ?_, rfl, s.popSeg_changes g⟩
    calc (s.popSeg g).reg16 .sp = s.pop16.2.reg16 .sp := State.reg16_setSeg _ g _ .sp
      _ = s.reg16 .sp + 2 := by rw [State.reg16_pop16, if_pos rfl]

/-- Settles O33: each form reads its operand and pushes; PUSHF pushes FLAGS without a read, as an immediate is. -/
theorem pushes : Obligations.Pushes := fun s hw =>
  ⟨fun _ src h => ⟨_, exec_push s h, s.push16_afterSrc16_law src _ hw⟩,
    _, rfl, s.push16_afterSrc16_law (.imm 0) s.flags hw⟩

/-- Settles O34: each form pops, and then writes its place, where SP is only if the place is SP. -/
theorem pops : Obligations.Pops := by
  intro s hw w top
  have sp : s.pop16.2.reg16 .sp = s.reg16 .sp + 2 := by rw [State.reg16_pop16, if_pos rfl]
  have wf : Memory.wf s.pop16.2.mem = true := by rwa [State.pop16_mem]
  refine ⟨fun i e h => ?_, _, rfl, rfl, sp, ?_⟩
  · have written := State.writeLoc16_changes s.pop16.2 (s.loc e) w wf
    refine ⟨_, exec_pop s h, State.at16_writeLoc16 _ _ _ wf, fun other => ?_,
      (s.pop16_changes.trans written).mono (by constructor <;> simp [Effect.andThen, top])⟩
    have kept : .sp ∉ (s.loc e).regs := by
      cases e with
      | reg r => exact fun m => other (congrArg Rm.reg (List.mem_singleton.1 m).symm)
      | mem m => exact List.not_mem_nil
    exact (written.regs .sp kept nofun).trans sp
  · exact (s.pop16_changes.trans (State.writeFlags_changes _ w)).mono (by constructor <;> simp [Effect.andThen, top])

/-- Settles O35: the word and byte forms, and XCHG AX,r16 as XCHG Ew,Gw with AX for the operand. -/
theorem exchanges : Obligations.Exchanges := by
  refine fun s hw => ⟨fun e g => exec_xchgEbGb_swaps s e g hw, fun e g => exec_xchgEwGw_swaps s e g hw, fun r => ?_,
    s, rfl, .refl s⟩
  obtain ⟨t, run, ax, other, changes⟩ := exec_xchgEwGw_swaps s (.reg .ax) r hw
  exact ⟨t, run, ax, other, changes.mono (by constructor <;> simp [State.loc, Loc.regs, Loc.stores16, Loc.last16])⟩

/-- Settles O36: XLAT is a read and LEA a register write; LDS and LES are `State.loadFar`. -/
theorem tableAndPointerLoads : Obligations.TableAndPointerLoads := by
  intro s
  refine ⟨?_, fun g m => ⟨_, rfl, s.reg16_setReg16_self g _, s.setReg16_changes g _⟩,
    fun g m => ⟨_, rfl, s.loadFar_law g m .ds⟩, fun g m => ⟨_, rfl, s.loadFar_law g m .es⟩⟩
  intro o x
  have entry : s.reg16 .bx + zext16 (s.reg8 .al) = o := by
    apply BitVec.eq_of_toNat_eq
    simp [o, zext16]
  have loaded : exec .xlat s = .next ((s.read8 x o).2.setReg8 .al (s.memByte (phys x o))) := by rw [← entry]; rfl
  exact ⟨_, loaded, State.reg8_setReg8_self _ .al _,
    ((s.read8_changes x o).trans (State.setReg8_changes _ .al _)).mono (by constructor <;> simp [Effect.andThen])⟩

end Sys2Proof.Machine
end

section
/-! Arithmetic on two operands and on one: what a read keeps, what the flags of a subtraction say, and each instruction as
its shared operation (42_arithmetic.md R251 to R260; 43_logic.md R300 to R304). -/

namespace Sys2Proof.Machine

/-! ## What a read keeps -/

section
variable {s t : State} {last : Option Phys} (read : Changes { last := last } s t)
include read

theorem Changes.read_reg16 (r : Reg16) : t.reg16 r = s.reg16 r := read.regs r List.not_mem_nil nofun

theorem Changes.read_reg8 (r : Reg8) : t.reg8 r = s.reg8 r := read.halves r List.not_mem_nil List.not_mem_nil

theorem Changes.read_dxAx : t.dxAx = s.dxAx := by rw [State.dxAx, State.dxAx, read.read_reg16, read.read_reg16]

theorem Changes.read_flag (f : Flag) : t.flag f = s.flag f := read.flags rfl f.bit nofun

theorem Changes.read_memByte (a : Phys) : t.memByte a = s.memByte a := read.mem a List.not_mem_nil

theorem Changes.read_at8 (l : Loc Reg8) : t.at8 l = s.at8 l := by
  cases l with
  | reg r => exact read.read_reg8 r
  | mem x o => exact read.read_memByte _

theorem Changes.read_at16 (l : Loc Reg16) : t.at16 l = s.at16 l := by
  cases l with
  | reg r => exact read.read_reg16 r
  | mem x o => exact congrArg₂ join16 (read.read_memByte _) (read.read_memByte _)

end

/-! ## Flags of a subtraction -/

/-- The conditions of the conditional jumps compare a and b (45_control.md R385). -/
def Compares {w : Nat} (t : State) (a b : BitVec w) : Prop :=
  (t.cond .b = true ↔ a.toNat < b.toNat) ∧ (t.cond .be = true ↔ a.toNat ≤ b.toNat) ∧
  (t.cond .a = true ↔ b.toNat < a.toNat) ∧ (t.cond .ae = true ↔ b.toNat ≤ a.toNat) ∧
  (t.cond .l = true ↔ a.toInt < b.toInt) ∧ (t.cond .le = true ↔ a.toInt ≤ b.toInt) ∧
  (t.cond .g = true ↔ b.toInt < a.toInt) ∧ (t.cond .ge = true ↔ b.toInt ≤ a.toInt) ∧
  (t.cond .e = true ↔ a = b) ∧ (t.cond .ne = true ↔ a ≠ b)

/-- The sign of a difference is the comparison, turned over where the difference overflows: it is then off by `2 ^ w`. -/
theorem toInt_lt_iff_sub_neg_ne_overflow {w : Nat} (a b : BitVec w) :
    a.toInt < b.toInt ↔ ((a - b).toInt < 0 ↔ (a - b).toInt = a.toInt - b.toInt) := by
  have := a.two_mul_toInt_lt
  have := a.le_two_mul_toInt
  have := b.two_mul_toInt_lt
  have := b.le_two_mul_toInt
  have turn : ((2 ^ w : Nat) : Int) = 2 ^ w := by push_cast; rfl
  have wraps : (a.toInt - b.toInt) % 2 ^ w =
      if a.toInt < b.toInt then a.toInt - b.toInt + 2 ^ w else a.toInt - b.toInt := by
    split
    · rw [← Int.add_emod_right, Int.emod_eq_of_lt (by omega) (by omega)]
    · exact Int.emod_eq_of_lt (by omega) (by omega)
  rw [BitVec.toInt_sub, Int.bmod_def, turn, wraps]
  split_ifs <;> omega

theorem compares_of_cmp {w : Nat} {a b : BitVec w} {c : Bool} {d : Nat} {t : State} (h : AluOp.Sets .cmp a b c d t) :
    Compares t a b := by
  obtain ⟨carry, overflow, -, sign, zero, -⟩ := h
  have below : t.flag .cf = true ↔ a.toNat < b.toNat := by rw [carry]; exact decide_eq_true_iff
  have equal : t.flag .zf = true ↔ a = b := by
    rw [zero, decide_eq_true_iff]
    exact BitVec.toNat_eq.symm.trans sub_eq_zero
  have exact : AluOp.exact .cmp a b c = a.toInt - b.toInt := by simp [AluOp.exact, AluOp.carryIn]
  have notLess : t.flag .sf = t.flag .ofl ↔ ¬ a.toInt < b.toInt := by
    rw [sign, overflow, AluOp.overflows, decide_eq_decide, toInt_lt_iff_sub_neg_ne_overflow, exact, not_iff, not_iff_comm]
    exact iff_comm
  refine ⟨below, ?be, ?above, ?ae, ?l, ?le, ?g, ?ge, equal, ?ne⟩ <;>
    simp only [State.cond, Bool.or_eq_true, Bool.and_eq_true, Bool.not_eq_eq_eq_not, Bool.not_true, bne_iff_ne, beq_iff_eq,
      ← Bool.not_eq_true, below, equal, notLess, ne_eq, not_not]
  case ae => exact Nat.not_lt
  case ge => exact Int.not_lt
  case be | above => rw [BitVec.toNat_eq]; omega
  case le | g => rw [← BitVec.toInt_inj]; omega

/-- The borrow of a subtraction from 0 (42_arithmetic.md R260). -/
theorem carryOut_zero_sub {w : Nat} (a : BitVec w) : AluOp.carryOut .sub 0 a false = decide (a ≠ 0) := by
  simp [AluOp.carryOut, AluOp.carryIn, BitVec.toNat_eq, Nat.pos_iff_ne_zero]

/-! ## Instructions -/

section
variable {i : Instr} {op : AluOp} (s : State)

theorem exec_alu8 {dst : Rm8} {src : Src8} (h : asAlu8 i = some (op, dst, src)) :
    exec i s = .next ((s.afterSrc8 src).alu8 op (s.loc dst) (s.src8 src)) := by
  cases i with
  | addEbGb | orEbGb | adcEbGb | sbbEbGb | andEbGb | subEbGb | xorEbGb | cmpEbGb
  | addAlIb | orAlIb | adcAlIb | sbbAlIb | andAlIb | subAlIb | xorAlIb | cmpAlIb
  | addEbIb | orEbIb | adcEbIb | sbbEbIb | andEbIb | subEbIb | xorEbIb | cmpEbIb
  | addEbIb82 | adcEbIb82 | sbbEbIb82 | subEbIb82 | cmpEbIb82 => cases h; rfl
  | addGbEb g e | orGbEb g e | adcGbEb g e | sbbGbEb g e | andGbEb g e | subGbEb g e | xorGbEb g e | cmpGbEb g e =>
    cases h; cases e <;> rfl
  | _ => cases h

theorem exec_alu16 {dst : Rm16} {src : Src16} (h : asAlu16 i = some (op, dst, src)) :
    exec i s = .next ((s.afterSrc16 src).alu16 op (s.loc dst) (s.src16 src)) := by
  cases i with
  | addEwGw | orEwGw | adcEwGw | sbbEwGw | andEwGw | subEwGw | xorEwGw | cmpEwGw
  | addAxIw | orAxIw | adcAxIw | sbbAxIw | andAxIw | subAxIw | xorAxIw | cmpAxIw
  | addEwIw | orEwIw | adcEwIw | sbbEwIw | andEwIw | subEwIw | xorEwIw | cmpEwIw
  | addEwIbSx | adcEwIbSx | sbbEwIbSx | subEwIbSx | cmpEwIbSx => cases h; rfl
  | addGwEw g e | orGwEw g e | adcGwEw g e | sbbGwEw g e | andGwEw g e | subGwEw g e | xorGwEw g e | cmpGwEw g e =>
    cases h; cases e <;> rfl
  | _ => cases h

theorem exec_incDec8 {dst : Rm8} (h : asIncDec8 i = some (op, dst)) :
    ∃ down, op = (if down then .sub else .add) ∧ exec i s = .next (s.incDec8 down (s.loc dst)) := by
  cases i with
  | incEb => cases h; exact ⟨false, rfl, rfl⟩
  | decEb => cases h; exact ⟨true, rfl, rfl⟩
  | _ => cases h

theorem exec_incDec16 {dst : Rm16} (h : asIncDec16 i = some (op, dst)) :
    ∃ down, op = (if down then .sub else .add) ∧ exec i s = .next (s.incDec16 down (s.loc dst)) := by
  cases i with
  | incEw | incR16 => cases h; exact ⟨false, rfl, rfl⟩
  | decEw | decR16 => cases h; exact ⟨true, rfl, rfl⟩
  | _ => cases h

end

end Sys2Proof.Machine
end

section
/-! The statements of the operations on one and two operands (42_arithmetic.md R251 to R260; 43_logic.md R300 to R304). -/

namespace Sys2Proof.Machine

/-- Settles O18: each form reads its source and is `State.alu8` after that. -/
theorem aluBytes : Obligations.AluBytes := by
  intro i op dst src s h hw a b
  have read := s.afterSrc8_changes src
  have law := (s.afterSrc8 src).alu8_law op (s.loc dst) b (by rwa [s.afterSrc8_mem])
  rw [read.read_at8, read.read_flag, read.draws] at law
  obtain ⟨value, sets, changes⟩ := law
  exact ⟨_, exec_alu8 s h, value, sets, (read.trans changes).mono (by constructor <;> simp [Effect.andThen, sixFlags])⟩

/-- Settles O19: each form reads its source and is `State.alu16` after that. -/
theorem aluWords : Obligations.AluWords := by
  intro i op dst src s h hw a b
  have read := s.afterSrc16_changes src
  have law := (s.afterSrc16 src).alu16_law op (s.loc dst) b (by rwa [s.afterSrc16_mem])
  rw [read.read_at16, read.read_flag, read.draws] at law
  obtain ⟨value, sets, changes⟩ := law
  exact ⟨_, exec_alu16 s h, value, sets, (read.trans changes).mono (by constructor <;> simp [Effect.andThen, sixFlags])⟩

/-- Settles O21: the forms are `State.incDec8` and `State.incDec16`. -/
theorem incDecKeepCarry : Obligations.IncDecKeepCarry := by
  constructor
  · intro i op dst s h hw
    obtain ⟨down, rfl, run⟩ := exec_incDec8 s h
    exact ⟨_, run, s.incDec8_law down (s.loc dst) hw⟩
  · intro i op dst s h hw
    obtain ⟨down, rfl, run⟩ := exec_incDec16 s h
    exact ⟨_, run, s.incDec16_law down (s.loc dst) hw⟩

/-- Settles O22: the forms are the operations NEG and NOT of a place. -/
theorem negNot : Obligations.NegNot := by
  constructor
  · intro e s hw
    obtain ⟨value, sets, changes⟩ := s.neg8_law (s.loc e) hw
    exact ⟨⟨_, rfl, value, sets, sets.1.trans (carryOut_zero_sub _), changes⟩, _, rfl, s.not8_law (s.loc e) hw⟩
  · intro e s hw
    obtain ⟨value, sets, changes⟩ := s.neg16_law (s.loc e) hw
    exact ⟨⟨_, rfl, value, sets, sets.1.trans (carryOut_zero_sub _), changes⟩, _, rfl, s.not16_law (s.loc e) hw⟩

/-- Settles O45: CMP of the accumulator with an immediate sets the flags of `State.alu`. -/
theorem compareThenJump : Obligations.CompareThenJump :=
  ⟨fun s b => ⟨(s.alu .cmp (s.reg16 .ax) b).2, rfl, compares_of_cmp (s.alu_sets (by decide) .cmp _ b)⟩,
    fun s b => ⟨(s.alu .cmp (s.reg8 .al) b).2, rfl, compares_of_cmp (s.alu_sets (by decide) .cmp _ b)⟩⟩

end Sys2Proof.Machine
end

section
/-! Multiplication and sign extension: the halves of a product, and what each operation leaves after its operand is read
(42_arithmetic.md R261, R262, R271, R272). -/

namespace Sys2Proof.Machine

/-! ## The halves of a double width -/

theorem toNat_append_eq {v w : Nat} (hi : BitVec v) (lo : BitVec w) :
    (hi ++ lo).toNat = hi.toNat * 2 ^ w + lo.toNat := by
  rw [BitVec.toNat_append, ← Nat.shiftLeft_add_eq_or_of_lt lo.isLt, Nat.shiftLeft_eq]

theorem toNat_hi8 (x : Word) : (hi8 x).toNat = x.toNat / 256 := by
  rw [hi8, BitVec.extractLsb'_toNat, Nat.shiftRight_eq_div_pow]
  exact Nat.mod_eq_of_lt (Nat.div_lt_of_lt_mul x.isLt)

/-- A number read as signed keeps its value in fewer bits exactly when it fits them. -/
theorem toInt_setWidth_eq_iff {v w : Nat} (hv : 0 < v) (h : v ≤ w) (x : BitVec w) :
    (x.setWidth v).toInt = x.toInt ↔ -2 ^ (v - 1) ≤ x.toInt ∧ x.toInt < 2 ^ (v - 1) := by
  constructor
  · intro same
    rw [← same]
    exact ⟨BitVec.le_toInt _, BitVec.toInt_lt⟩
  · intro ⟨low, high⟩
    rw [← BitVec.toInt_ofInt_eq_self hv low high, BitVec.toInt_ofInt, BitVec.toInt_setWidth, x.toInt_eq_toNat_bmod,
      Int.bmod_bmod_of_dvd (Nat.pow_dvd_pow 2 h)]

theorem toInt_lo8_ne_iff (x : Word) : (lo8 x).toInt ≠ x.toInt ↔ ¬ (-128 ≤ x.toInt ∧ x.toInt ≤ 127) := by
  rw [lo8_eq_setWidth, ne_eq, toInt_setWidth_eq_iff (by decide) (by decide)]
  omega

/-! ## DX:AX -/

section
variable (s : State)

theorem State.dxAx_setDxAx (v : DWord) : (s.setDxAx v).dxAx = v :=
  (BitVec.extractLsb'_append_extractLsb'_eq_extractLsb' rfl).trans BitVec.extractLsb'_eq_self

theorem State.setDxAx_changes (v : DWord) : Changes { regs := [.ax, .dx] } s (s.setDxAx v) :=
  ((s.setReg16_changes .dx _).trans (State.setReg16_changes _ .ax _)).mono (by constructor <;> simp [Effect.andThen])

theorem State.toNat_dxAx : s.dxAx.toNat = (s.reg16 .dx).toNat * 65536 + (s.reg16 .ax).toNat := toNat_append_eq _ _

theorem State.toInt_ax_ne_dxAx_iff :
    (s.reg16 .ax).toInt ≠ s.dxAx.toInt ↔ ¬ (-32768 ≤ s.dxAx.toInt ∧ s.dxAx.toInt ≤ 32767) := by
  have low : s.reg16 .ax = s.dxAx.setWidth 16 := BitVec.setWidth_append_eq_right.symm
  rw [low, ne_eq, toInt_setWidth_eq_iff (by decide) (by decide)]
  omega

/-! ## The halves of a word register -/

theorem State.toNat_ax : (s.reg16 .ax).toNat = (s.reg8 .ah).toNat * 256 + (s.reg8 .al).toNat := by
  rw [← join16_hi8_lo8 (s.reg16 .ax)]
  exact toNat_append_eq _ _

/-- The half written first keeps its byte when the other is written. -/
theorem State.reg8_setReg8_setReg8 {x y : Reg8} (other : x ≠ y) (v w : Byte) :
    ((s.setReg8 x v).setReg8 y w).reg8 x = v := by
  rw [State.reg8_setReg8, if_neg other, State.reg8_setReg8_self]

/-- Both halves of a word register written. -/
theorem State.setReg8_setReg8_changes (x : Reg8) (v : Byte) (y : Reg8) (w : Byte) (same : Reg8.whole y = Reg8.whole x) :
    Changes { regs := [Reg8.whole x] } s ((s.setReg8 x v).setReg8 y w) :=
  ((s.setReg8_changes x v).trans (State.setReg8_changes _ y w)).mono (by constructor <;> simp [Effect.andThen, same])

/-! ## Where flags are drawn -/

@[simp] theorem State.drawFlags_mem (l : List Flag) : (s.drawFlags l).mem = s.mem := by
  induction l generalizing s with
  | nil => rfl
  | cons f l ih => exact (ih _).trans (s.drawFlag_mem f)

@[simp] theorem State.reg16_drawFlags (l : List Flag) (r : Reg16) : (s.drawFlags l).reg16 r = s.reg16 r :=
  (s.drawFlags_changes l).regs r List.not_mem_nil nofun

@[simp] theorem State.reg8_drawFlags (l : List Flag) (r : Reg8) : (s.drawFlags l).reg8 r = s.reg8 r :=
  (s.drawFlags_changes l).halves r List.not_mem_nil List.not_mem_nil

end

/-- Flags drawn after some change hold the draws that follow those of the change. -/
theorem Changes.drawn {e : Effect} {s t : State} (h : Changes e s t) {l : List Flag} (hl : l.Nodup) :
    Drawn (t.drawFlags l) (s.draws + e.draws) l := by
  rw [← h.draws]
  exact t.drawFlags_drawn hl

/-! ## Products -/

/-- CF and OF of a multiplication, its four draws, and what has changed since the operand was read (42_arithmetic.md R261,
R262). -/
theorem State.mulFlags_law {s t : State} {rs : List Reg16} {last : Option Phys}
    (h : Changes { regs := rs, last := last } s t) (b : Bool) :
    (t.mulFlags b).flag .cf = b ∧ (t.mulFlags b).flag .ofl = b ∧ Drawn (t.mulFlags b) s.draws [.sf, .zf, .af, .pf] ∧
    Changes { regs := rs, flags := [.cf, .pf, .af, .zf, .sf, .ofl], last := last, draws := 4 } s (t.mulFlags b) := by
  have set := (h.trans (t.setFlag_changes .cf b)).trans (State.setFlag_changes _ .ofl b)
  refine ⟨?_, ?_, set.drawn (by decide), (set.trans (State.drawFlags_changes _ _)).mono
    (by constructor <;> simp [Effect.andThen])⟩
  · rw [State.mulFlags, State.flag_drawFlags_ne _ (by decide), State.flag_setFlag, if_neg (by decide),
      State.flag_setFlag_self]
  · rw [State.mulFlags, State.flag_drawFlags_ne _ (by decide), State.flag_setFlag_self]

@[simp] theorem State.reg16_mulFlags (s : State) (b : Bool) (r : Reg16) : (s.mulFlags b).reg16 r = s.reg16 r := by
  rw [State.mulFlags, State.reg16_drawFlags, State.reg16_setFlag, State.reg16_setFlag]

@[simp] theorem State.dxAx_mulFlags (s : State) (b : Bool) : (s.mulFlags b).dxAx = s.dxAx := by simp [State.dxAx]

section
variable {s t : State} {last : Option Phys} (read : Changes { last := last } s t)
include read

theorem Changes.read_setReg16 (r : Reg16) (v : Word) : Changes { regs := [r], last := last } s (t.setReg16 r v) :=
  (read.trans (t.setReg16_changes r v)).mono (by constructor <;> simp [Effect.andThen])

theorem Changes.read_setDxAx (v : DWord) : Changes { regs := [.ax, .dx], last := last } s (t.setDxAx v) :=
  (read.trans (t.setDxAx_changes v)).mono (by constructor <;> simp [Effect.andThen])

theorem State.mul8_law (v : Byte) :
    ((t.mul8 v).reg16 .ax).toNat = (s.reg8 .al).toNat * v.toNat ∧
    (t.mul8 v).flag .cf = decide ((t.mul8 v).reg8 .ah ≠ 0) ∧ (t.mul8 v).flag .ofl = decide ((t.mul8 v).reg8 .ah ≠ 0) ∧
    Drawn (t.mul8 v) s.draws [.sf, .zf, .af, .pf] ∧
    Changes { regs := [.ax], flags := [.cf, .pf, .af, .zf, .sf, .ofl], last := last, draws := 4 } s (t.mul8 v) := by
  have product : ((t.mul8 v).reg16 .ax).toNat = (t.reg8 .al).toNat * v.toNat := by
    rw [State.mul8, State.reg16_mulFlags, State.reg16_setReg16_self, BitVec.toNat_ofNat]
    exact Nat.mod_eq_of_lt BitVec.toNat_mul_toNat_lt
  have high : decide ((t.reg8 .al).toNat * v.toNat / 256 ≠ 0) = decide ((t.mul8 v).reg8 .ah ≠ 0) := by
    rw [← product, ← toNat_hi8, decide_eq_decide, ne_eq, ne_eq, BitVec.toNat_eq]
    rfl
  rw [← read.read_reg8, ← high]
  exact ⟨product, State.mulFlags_law (read.read_setReg16 .ax _) _⟩

theorem State.mul16_law (v : Word) :
    ((t.mul16 v).reg16 .dx).toNat * 65536 + ((t.mul16 v).reg16 .ax).toNat = (s.reg16 .ax).toNat * v.toNat ∧
    (t.mul16 v).flag .cf = decide ((t.mul16 v).reg16 .dx ≠ 0) ∧
    (t.mul16 v).flag .ofl = decide ((t.mul16 v).reg16 .dx ≠ 0) ∧
    Drawn (t.mul16 v) s.draws [.sf, .zf, .af, .pf] ∧
    Changes { regs := [.ax, .dx], flags := [.cf, .pf, .af, .zf, .sf, .ofl], last := last, draws := 4 } s (t.mul16 v) := by
  have product : (t.mul16 v).dxAx.toNat = (t.reg16 .ax).toNat * v.toNat := by
    rw [State.mul16, State.dxAx_mulFlags, State.dxAx_setDxAx, BitVec.toNat_ofNat]
    exact Nat.mod_eq_of_lt BitVec.toNat_mul_toNat_lt
  have high : decide ((t.reg16 .ax).toNat * v.toNat / 65536 ≠ 0) = decide ((t.mul16 v).reg16 .dx ≠ 0) := by
    rw [← product, State.toNat_dxAx, decide_eq_decide]
    bv_omega
  rw [← read.read_reg16, ← high, ← State.toNat_dxAx]
  exact ⟨product, State.mulFlags_law (read.read_setDxAx _) _⟩

theorem State.imul8_law (v : Byte) :
    ((t.imul8 v).reg16 .ax).toInt = (s.reg8 .al).toInt * v.toInt ∧
    (t.imul8 v).flag .cf = decide (((t.imul8 v).reg8 .al).toInt ≠ ((t.imul8 v).reg16 .ax).toInt) ∧
    (t.imul8 v).flag .ofl = (t.imul8 v).flag .cf ∧
    Drawn (t.imul8 v) s.draws [.sf, .zf, .af, .pf] ∧
    Changes { regs := [.ax], flags := [.cf, .pf, .af, .zf, .sf, .ofl], last := last, draws := 4 } s (t.imul8 v) := by
  have product : ((t.imul8 v).reg16 .ax).toInt = (t.reg8 .al).toInt * v.toInt := by
    rw [State.imul8, State.reg16_mulFlags, State.reg16_setReg16_self]
    have low := BitVec.le_toInt_mul_toInt (x := t.reg8 .al) (y := v)
    have high := BitVec.toInt_mul_toInt_le (x := t.reg8 .al) (y := v)
    exact BitVec.toInt_ofInt_eq_self (by decide) (by omega) (by omega)
  have narrow : (!(decide (-128 ≤ (t.reg8 .al).toInt * v.toInt) && decide ((t.reg8 .al).toInt * v.toInt ≤ 127))) =
      decide (((t.imul8 v).reg8 .al).toInt ≠ ((t.imul8 v).reg16 .ax).toInt) := by
    rw [← product, ← Bool.decide_and, ← decide_not, decide_eq_decide]
    exact (toInt_lo8_ne_iff _).symm
  obtain ⟨cf, ofl, rest⟩ :=
    State.mulFlags_law (read.read_setReg16 .ax (BitVec.ofInt 16 ((t.reg8 .al).toInt * v.toInt))) _
  rw [← read.read_reg8]
  exact ⟨product, cf.trans narrow, ofl.trans cf.symm, rest⟩

theorem State.imul16_law (v : Word) :
    (t.imul16 v).dxAx.toInt = (s.reg16 .ax).toInt * v.toInt ∧
    (t.imul16 v).flag .cf = decide (((t.imul16 v).reg16 .ax).toInt ≠ (t.imul16 v).dxAx.toInt) ∧
    (t.imul16 v).flag .ofl = (t.imul16 v).flag .cf ∧
    Drawn (t.imul16 v) s.draws [.sf, .zf, .af, .pf] ∧
    Changes { regs := [.ax, .dx], flags := [.cf, .pf, .af, .zf, .sf, .ofl], last := last, draws := 4 } s (t.imul16 v) := by
  have product : (t.imul16 v).dxAx.toInt = (t.reg16 .ax).toInt * v.toInt := by
    rw [State.imul16, State.dxAx_mulFlags, State.dxAx_setDxAx]
    have low := BitVec.le_toInt_mul_toInt (x := t.reg16 .ax) (y := v)
    have high := BitVec.toInt_mul_toInt_le (x := t.reg16 .ax) (y := v)
    exact BitVec.toInt_ofInt_eq_self (by decide) (by omega) (by omega)
  have narrow :
      (!(decide (-32768 ≤ (t.reg16 .ax).toInt * v.toInt) && decide ((t.reg16 .ax).toInt * v.toInt ≤ 32767))) =
      decide (((t.imul16 v).reg16 .ax).toInt ≠ (t.imul16 v).dxAx.toInt) := by
    rw [← product, ← Bool.decide_and, ← decide_not, decide_eq_decide]
    exact (State.toInt_ax_ne_dxAx_iff _).symm
  obtain ⟨cf, ofl, rest⟩ := State.mulFlags_law (read.read_setDxAx (BitVec.ofInt 32 ((t.reg16 .ax).toInt * v.toInt))) _
  rw [← read.read_reg16]
  exact ⟨product, cf.trans narrow, ofl.trans cf.symm, rest⟩

end

end Sys2Proof.Machine
end

section
/-! The statements of multiplication and sign extension (42_arithmetic.md R261, R262, R271, R272). -/

namespace Sys2Proof.Machine

/-- Settles O23: each form reads its operand and multiplies. -/
theorem products : Obligations.Products := by
  intro s
  refine ⟨fun e => ?_, fun e => ?_, fun e => ?_, fun e => ?_⟩
  · rw [← s.readRm8_value e]
    exact ⟨_, rfl, State.mul8_law (s.readRm8_changes e) _⟩
  · rw [← s.readRm16_value e]
    exact ⟨_, rfl, State.mul16_law (s.readRm16_changes e) _⟩
  · rw [← s.readRm8_value e]
    exact ⟨_, rfl, State.imul8_law (s.readRm8_changes e) _⟩
  · rw [← s.readRm16_value e]
    exact ⟨_, rfl, State.imul16_law (s.readRm16_changes e) _⟩

/-- Settles O28: both are the sign extension of the accumulator. -/
theorem signExtension : Obligations.SignExtension := by
  intro s
  constructor
  · refine ⟨_, rfl, ?_, s.setReg16_changes .ax _⟩
    rw [State.reg16_setReg16_self]
    exact BitVec.toInt_signExtend_of_le (by decide)
  · refine ⟨_, rfl, ?_, s.setReg16_changes .dx _⟩
    have extended : (s.setReg16 .dx (if (s.reg16 .ax).msb then 0xFFFF else 0)).dxAx = (s.reg16 .ax).signExtend 32 :=
      (BitVec.signExtend_eq_append_of_le (by decide)).symm
    rw [extended]
    exact BitVec.toInt_signExtend_of_le (by decide)

end Sys2Proof.Machine
end

section
/-! Division: quotients that fit and those that do not, and what a quotient and a divide error leave after the operand is
read (42_arithmetic.md R263, R264; 60_exceptions.md R500, R520). -/

namespace Sys2Proof.Machine

/-! ## Quotients -/

section
variable {w n : Nat} {d : BitVec w}

theorem toNat_ofNat_div (fits : n < 2 ^ w * d.toNat) : (BitVec.ofNat w (n / d.toNat)).toNat = n / d.toNat := by
  rw [BitVec.toNat_ofNat]
  exact Nat.mod_eq_of_lt (Nat.div_lt_of_lt_mul (by rwa [Nat.mul_comm]))

theorem toNat_ofNat_mod (hd : d ≠ 0) : (BitVec.ofNat w (n % d.toNat)).toNat = n % d.toNat := by
  rw [BitVec.toNat_ofNat]
  exact Nat.mod_eq_of_lt ((Nat.mod_lt n (BitVec.toNat_pos_of_ne_zero hd)).trans d.isLt)

end

/-- Truncated division is the only one whose remainder has the dividend's sign (42_arithmetic.md R264). -/
theorem tdiv_tmod_of_signs {n d q r : Int} (split : n = d * q + r) (small : r.natAbs < d.natAbs) (nonneg : 0 ≤ r ∨ n < 0)
    (nonpos : r ≤ 0 ∨ 0 ≤ n) : n.tdiv d = q ∧ n.tmod d = r := by
  have hd : d ≠ 0 := by rintro rfl; simp at small
  rcases Int.lt_or_le n 0 with h | h
  · exact (Int.tdiv_tmod_unique' (Int.le_of_lt h) hd).2 ⟨by omega, by omega, by omega⟩
  · exact (Int.tdiv_tmod_unique h hd).2 ⟨by omega, by omega, by omega⟩

theorem le_natAbs_tdiv {n d : Int} {m : Nat} (hd : d ≠ 0) (h : m * d.natAbs ≤ n.natAbs) : m ≤ (n.tdiv d).natAbs := by
  rw [Int.natAbs_tdiv]
  exact (Nat.le_div_iff_mul_le (Int.natAbs_pos.2 hd)).2 h

/-! ## The two ways a division ends -/

section
variable (s : State)

theorem State.div8_of_fits {d : Byte} (hd : d ≠ 0) (fits : (s.reg16 .ax).toNat < 256 * d.toNat) :
    s.div8 d = s.putQuotient8 (BitVec.ofNat 8 ((s.reg16 .ax).toNat / d.toNat))
      (BitVec.ofNat 8 ((s.reg16 .ax).toNat % d.toNat)) := by
  have := Nat.div_lt_of_lt_mul (Nat.mul_comm .. ▸ fits)
  exact if_neg (by rintro (h | h); exacts [hd h, by omega])

theorem State.div16_of_fits {d : Word} (hd : d ≠ 0) (fits : s.dxAx.toNat < 65536 * d.toNat) :
    s.div16 d = s.putQuotient16 (BitVec.ofNat 16 (s.dxAx.toNat / d.toNat))
      (BitVec.ofNat 16 (s.dxAx.toNat % d.toNat)) := by
  have := Nat.div_lt_of_lt_mul (Nat.mul_comm .. ▸ fits)
  exact if_neg (by rintro (h | h); exacts [hd h, by omega])

theorem State.div8_of_error {d : Byte} (h : d = 0 ∨ 256 * d.toNat ≤ (s.reg16 .ax).toNat) : s.div8 d = s.divideError8 := by
  refine if_pos (or_iff_not_imp_left.2 fun hd => ?_)
  exact (Nat.le_div_iff_mul_le (BitVec.toNat_pos_of_ne_zero hd)).2 (h.resolve_left hd)

theorem State.div16_of_error {d : Word} (h : d = 0 ∨ 65536 * d.toNat ≤ s.dxAx.toNat) : s.div16 d = s.divideError16 := by
  refine if_pos (or_iff_not_imp_left.2 fun hd => ?_)
  exact (Nat.le_div_iff_mul_le (BitVec.toNat_pos_of_ne_zero hd)).2 (h.resolve_left hd)

theorem State.idiv8_of_fits {d : Byte} {q r : Int} (hd : d ≠ 0)
    (value : (s.reg16 .ax).toInt.tdiv d.toInt = q ∧ (s.reg16 .ax).toInt.tmod d.toInt = r) (low : -127 ≤ q)
    (high : q ≤ 127) :
    s.idiv8 d = s.putQuotient8 (BitVec.ofInt 8 q) (BitVec.ofInt 8 r) := by
  obtain ⟨rfl, rfl⟩ := value
  have least : idivLeast 8 = -127 := by decide
  exact if_neg (by rw [least]; rintro (h | h | h); exacts [hd h, by omega, by omega])

theorem State.idiv16_of_fits {d : Word} {q r : Int} (hd : d ≠ 0)
    (value : s.dxAx.toInt.tdiv d.toInt = q ∧ s.dxAx.toInt.tmod d.toInt = r) (low : -32767 ≤ q) (high : q ≤ 32767) :
    s.idiv16 d = s.putQuotient16 (BitVec.ofInt 16 q) (BitVec.ofInt 16 r) := by
  obtain ⟨rfl, rfl⟩ := value
  have least : idivLeast 16 = -32767 := by decide
  exact if_neg (by rw [least]; rintro (h | h | h); exacts [hd h, by omega, by omega])

theorem State.idiv8_of_error {d : Byte} (h : d = 0 ∨ 128 * d.toInt.natAbs ≤ (s.reg16 .ax).toInt.natAbs) :
    s.idiv8 d = s.divideError8 := by
  refine if_pos (or_iff_not_imp_left.2 fun hd => ?_)
  have large := le_natAbs_tdiv (BitVec.toInt_ne.2 hd) (h.resolve_left hd)
  have least : idivLeast 8 = -127 := by decide
  rw [least]
  omega

theorem State.idiv16_of_error {d : Word} (h : d = 0 ∨ 32768 * d.toInt.natAbs ≤ s.dxAx.toInt.natAbs) :
    s.idiv16 d = s.divideError16 := by
  refine if_pos (or_iff_not_imp_left.2 fun hd => ?_)
  have large := le_natAbs_tdiv (BitVec.toInt_ne.2 hd) (h.resolve_left hd)
  have least : idivLeast 16 = -32767 := by decide
  rw [least]
  omega

theorem State.drawReg_changes (r : Reg16) : Changes { regs := [r], draws := 1 } s (s.drawReg r) :=
  (s.draw_changes.trans (State.setReg16_changes _ r _)).mono (by constructor <;> simp [Effect.andThen])

theorem State.reg16_drawReg (r x : Reg16) :
    (s.drawReg r).reg16 x = if x = r then Config.freeWord s.draws else s.reg16 x := State.reg16_setReg16 _ r _ x

end

section
variable {s t : State} {last : Option Phys} (read : Changes { last := last } s t)
include read

theorem State.putQuotient8_law (q r : Byte) :
    (t.putQuotient8 q r).reg8 .al = q ∧ (t.putQuotient8 q r).reg8 .ah = r ∧
    Drawn (t.putQuotient8 q r) s.draws resultFlags ∧
    Changes { regs := [.ax], flags := resultFlags, last := last, draws := 6 } s (t.putQuotient8 q r) := by
  have put : Changes { regs := [.ax], last := last } s ((t.setReg8 .al q).setReg8 .ah r) :=
    (read.trans (t.setReg8_setReg8_changes .al q .ah r rfl)).mono (by constructor <;> simp [Effect.andThen, Reg8.whole])
  refine ⟨?_, ?_, put.drawn (by decide), (put.trans (State.drawFlags_changes _ _)).mono
    (by constructor <;> simp [Effect.andThen, resultFlags])⟩
  · rw [State.putQuotient8, State.reg8_drawFlags, State.reg8_setReg8_setReg8 _ (by decide)]
  · rw [State.putQuotient8, State.reg8_drawFlags, State.reg8_setReg8_self]

theorem State.putQuotient16_law (q r : Word) :
    (t.putQuotient16 q r).reg16 .ax = q ∧ (t.putQuotient16 q r).reg16 .dx = r ∧
    Drawn (t.putQuotient16 q r) s.draws resultFlags ∧
    Changes { regs := [.ax, .dx], flags := resultFlags, last := last, draws := 6 } s (t.putQuotient16 q r) := by
  have put := (read.trans (t.setReg16_changes .ax q)).trans (State.setReg16_changes _ .dx r)
  refine ⟨?_, ?_, put.drawn (by decide), (put.trans (State.drawFlags_changes _ _)).mono
    (by constructor <;> simp [Effect.andThen, resultFlags])⟩
  · rw [State.putQuotient16, State.reg16_drawFlags, State.reg16_setReg16, if_neg (by decide), State.reg16_setReg16_self]
  · rw [State.putQuotient16, State.reg16_drawFlags, State.reg16_setReg16_self]

theorem State.div8_law {d : Byte} (hd : d ≠ 0) (fits : (s.reg16 .ax).toNat < 256 * d.toNat) :
    (s.reg16 .ax).toNat = d.toNat * ((t.div8 d).reg8 .al).toNat + ((t.div8 d).reg8 .ah).toNat ∧
    ((t.div8 d).reg8 .ah).toNat < d.toNat ∧ Drawn (t.div8 d) s.draws resultFlags ∧
    Changes { regs := [.ax], flags := resultFlags, last := last, draws := 6 } s (t.div8 d) := by
  rw [← read.read_reg16] at fits ⊢
  rw [State.div8_of_fits t hd fits]
  obtain ⟨al, ah, rest⟩ := State.putQuotient8_law read (BitVec.ofNat 8 ((t.reg16 .ax).toNat / d.toNat))
    (BitVec.ofNat 8 ((t.reg16 .ax).toNat % d.toNat))
  rw [al, ah, toNat_ofNat_div fits, toNat_ofNat_mod hd]
  exact ⟨(Nat.div_add_mod ..).symm, Nat.mod_lt _ (BitVec.toNat_pos_of_ne_zero hd), rest⟩

theorem State.div16_law {d : Word} (hd : d ≠ 0) (fits : s.dxAx.toNat < 65536 * d.toNat) :
    s.dxAx.toNat = d.toNat * ((t.div16 d).reg16 .ax).toNat + ((t.div16 d).reg16 .dx).toNat ∧
    ((t.div16 d).reg16 .dx).toNat < d.toNat ∧ Drawn (t.div16 d) s.draws resultFlags ∧
    Changes { regs := [.ax, .dx], flags := resultFlags, last := last, draws := 6 } s (t.div16 d) := by
  rw [← read.read_dxAx] at fits ⊢
  rw [State.div16_of_fits t hd fits]
  obtain ⟨ax, dx, rest⟩ := State.putQuotient16_law read (BitVec.ofNat 16 (t.dxAx.toNat / d.toNat))
    (BitVec.ofNat 16 (t.dxAx.toNat % d.toNat))
  rw [ax, dx, toNat_ofNat_div fits, toNat_ofNat_mod hd]
  exact ⟨(Nat.div_add_mod ..).symm, Nat.mod_lt _ (BitVec.toNat_pos_of_ne_zero hd), rest⟩

theorem State.idiv8_law {d : Byte} {q r : Int} (small : r.natAbs < d.toInt.natAbs)
    (value : (s.reg16 .ax).toInt.tdiv d.toInt = q ∧ (s.reg16 .ax).toInt.tmod d.toInt = r) (low : -127 ≤ q)
    (high : q ≤ 127) :
    ((t.idiv8 d).reg8 .al).toInt = q ∧ ((t.idiv8 d).reg8 .ah).toInt = r ∧ Drawn (t.idiv8 d) s.draws resultFlags ∧
    Changes { regs := [.ax], flags := resultFlags, last := last, draws := 6 } s (t.idiv8 d) := by
  rw [← read.read_reg16] at value
  rw [State.idiv8_of_fits t (by rintro rfl; simp at small) value low high]
  obtain ⟨al, ah, rest⟩ := State.putQuotient8_law read (BitVec.ofInt 8 q) (BitVec.ofInt 8 r)
  have := d.le_toInt
  have := d.toInt_lt
  rw [al, ah]
  exact ⟨BitVec.toInt_ofInt_eq_self (by decide) (by omega) (by omega),
    BitVec.toInt_ofInt_eq_self (by decide) (by omega) (by omega), rest⟩

theorem State.idiv16_law {d : Word} {q r : Int} (small : r.natAbs < d.toInt.natAbs)
    (value : s.dxAx.toInt.tdiv d.toInt = q ∧ s.dxAx.toInt.tmod d.toInt = r) (low : -32767 ≤ q) (high : q ≤ 32767) :
    ((t.idiv16 d).reg16 .ax).toInt = q ∧ ((t.idiv16 d).reg16 .dx).toInt = r ∧ Drawn (t.idiv16 d) s.draws resultFlags ∧
    Changes { regs := [.ax, .dx], flags := resultFlags, last := last, draws := 6 } s (t.idiv16 d) := by
  rw [← read.read_dxAx] at value
  rw [State.idiv16_of_fits t (by rintro rfl; simp at small) value low high]
  obtain ⟨ax, dx, rest⟩ := State.putQuotient16_law read (BitVec.ofInt 16 q) (BitVec.ofInt 16 r)
  have := d.le_toInt
  have := d.toInt_lt
  rw [ax, dx]
  exact ⟨BitVec.toInt_ofInt_eq_self (by decide) (by omega) (by omega),
    BitVec.toInt_ofInt_eq_self (by decide) (by omega) (by omega), rest⟩

end

/-! ## Divide errors -/

/-- The FLAGS word f is that of s but for the six result flags, which are as they are in t. -/
def FlagsDrawn (f : Word) (s t : State) : Prop :=
  (∀ k, (∀ g ∈ resultFlags, g.bit ≠ k) → f.getLsbD k = s.flags.getLsbD k) ∧
  (∀ g ∈ resultFlags, t.flag g = f.getLsbD g.bit)

/-- An interrupt raised by an instruction is entered, and the context records it (60_exceptions.md R514, R520). -/
theorem State.raise_law (s : State) (n : Byte) (hw : Memory.wf s.mem = true) :
    Entered n s.flags s (s.raise n) ∧
    Changes { regs := [.sp], segs := [.cs], flags := [.ifl, .tf], stores := s.frameBytes, last := some (vectorEnd n)
              transfer := true, halted := true, ctx := true } s (s.raise n) := by
  obtain ⟨entered, changes⟩ := State.interrupt_law { s with ctx := { s.ctx with entered := true } } n hw
  exact ⟨entered, ((s.setCtx_changes _).trans changes).mono
    (by constructor <;> simp [Effect.andThen, State.frameBytes, State.reg16, State.seg])⟩

theorem Entered.congr {n : Byte} {f : Word} {s s' t : State} (entered : Entered n f s' t) (sp : s'.reg16 .sp = s.reg16 .sp)
    (seg : ∀ g, s'.seg g = s.seg g) (ip : s'.ip = s.ip) : Entered n f s t := by
  rw [Entered, ← sp, ← seg, ← seg, ← ip]
  exact entered

/-- The end of a divide error: the six result flags are draws, then interrupt 0 is raised (42_arithmetic.md R263). -/
def State.drawFlagsAndRaise (s : State) : State := (s.drawFlags resultFlags).raise 0

/-- A divide error after the draws of the destination registers rs. -/
theorem State.drawFlagsAndRaise_law {s t : State} {rs : List Reg16} {last : Option Phys} {k : Nat}
    (h : Changes { regs := rs, last := last, draws := k } s t) (hsp : .sp ∉ rs) (hw : Memory.wf t.mem = true) :
    (∃ f, FlagsDrawn f s t.drawFlagsAndRaise ∧ Entered 0 f s t.drawFlagsAndRaise) ∧
    (∀ r ∈ rs, t.drawFlagsAndRaise.reg16 r = t.reg16 r) ∧ Drawn t.drawFlagsAndRaise (s.draws + k) resultFlags ∧
    Changes { regs := rs ++ [.sp], segs := [.cs], flags := .ifl :: .tf :: resultFlags, stores := s.frameBytes
              last := some (vectorEnd 0), draws := k + 6, transfer := true, halted := true, ctx := true } s
      t.drawFlagsAndRaise := by
  have drawn := h.trans (t.drawFlags_changes resultFlags)
  have sp : (t.drawFlags resultFlags).reg16 .sp = s.reg16 .sp :=
    drawn.regs .sp (by simpa [Effect.andThen] using hsp) nofun
  have seg (g : Seg) : (t.drawFlags resultFlags).seg g = s.seg g := drawn.segs g List.not_mem_nil
  have ip : (t.drawFlags resultFlags).ip = s.ip := by
    obtain ⟨pc, queue, -, -⟩ := drawn.pipe rfl
    rw [State.ip, State.ip, pc, queue]
  obtain ⟨entered, changes⟩ := (t.drawFlags resultFlags).raise_law 0 (by rwa [State.drawFlags_mem])
  rw [State.frameBytes, seg, sp] at changes
  have apart : ∀ f ∈ [Flag.ifl, .tf], f ∉ resultFlags := by decide
  have kept (g : Flag) (hg : g ∈ resultFlags) : t.drawFlagsAndRaise.flag g = (t.drawFlags resultFlags).flag g :=
    changes.flags rfl g.bit fun f hf same => apart f hf (Flag.bit_inj.1 same ▸ hg)
  refine ⟨⟨_, ⟨drawn.flags rfl, kept⟩, entered.congr sp seg ip⟩, fun r hr => ?_, fun j g hg => ?_,
    (drawn.trans changes).mono ?_⟩
  · exact (changes.regs r (fun m => hsp (List.mem_singleton.1 m ▸ hr)) nofun).trans (State.reg16_drawFlags t _ r)
  · exact (kept g (List.mem_of_getElem? hg)).trans (h.drawn (by decide) j g hg)
  · constructor <;> simp [Effect.andThen, resultFlags, State.frameBytes]

section
variable {s t : State} {last : Option Phys} (read : Changes { last := last } s t) (hw : Memory.wf t.mem = true)
include read hw

theorem State.divideError8_law :
    (∃ f, FlagsDrawn f s t.divideError8 ∧ Entered 0 f s t.divideError8) ∧
    t.divideError8.reg16 .ax = Config.freeWord s.draws ∧ Drawn t.divideError8 (s.draws + 1) resultFlags ∧
    Changes { regs := [.ax, .sp], segs := [.cs], flags := .ifl :: .tf :: resultFlags, stores := s.frameBytes
              last := some (vectorEnd 0), draws := 7, transfer := true, halted := true, ctx := true } s t.divideError8 := by
  have ax : Changes { regs := [.ax], last := last, draws := 1 } s (t.drawReg .ax) :=
    (read.trans (t.drawReg_changes .ax)).mono (by constructor <;> simp [Effect.andThen])
  obtain ⟨entered, regs, drawn, changes⟩ := State.drawFlagsAndRaise_law ax (by decide) hw
  refine ⟨entered, ?_, drawn, changes⟩
  calc t.divideError8.reg16 .ax = (t.drawReg .ax).reg16 .ax := regs .ax (by decide)
    _ = Config.freeWord s.draws := by rw [State.reg16_drawReg, if_pos rfl, read.draws]; rfl

theorem State.divideError16_law :
    (∃ f, FlagsDrawn f s t.divideError16 ∧ Entered 0 f s t.divideError16) ∧
    t.divideError16.reg16 .ax = Config.freeWord s.draws ∧ t.divideError16.reg16 .dx = Config.freeWord (s.draws + 1) ∧
    Drawn t.divideError16 (s.draws + 2) resultFlags ∧
    Changes { regs := [.ax, .dx, .sp], segs := [.cs], flags := .ifl :: .tf :: resultFlags, stores := s.frameBytes
              last := some (vectorEnd 0), draws := 8, transfer := true, halted := true, ctx := true } s
      t.divideError16 := by
  have ax := read.trans (t.drawReg_changes .ax)
  have both : Changes { regs := [.ax, .dx], last := last, draws := 2 } s ((t.drawReg .ax).drawReg .dx) :=
    (ax.trans (State.drawReg_changes _ .dx)).mono (by constructor <;> simp [Effect.andThen])
  obtain ⟨entered, regs, drawn, changes⟩ := State.drawFlagsAndRaise_law both (by decide) hw
  refine ⟨entered, ?_, ?_, drawn, changes⟩
  · calc t.divideError16.reg16 .ax = ((t.drawReg .ax).drawReg .dx).reg16 .ax := regs .ax (by decide)
      _ = Config.freeWord t.draws := by
        rw [State.reg16_drawReg, if_neg (by decide), State.reg16_drawReg, if_pos rfl]
      _ = Config.freeWord s.draws := by rw [read.draws]; rfl
  · calc t.divideError16.reg16 .dx = ((t.drawReg .ax).drawReg .dx).reg16 .dx := regs .dx (by decide)
      _ = Config.freeWord (t.drawReg .ax).draws := by rw [State.reg16_drawReg, if_pos rfl]
      _ = Config.freeWord (s.draws + 1) := by rw [ax.draws]; rfl

end

end Sys2Proof.Machine
end

section
/-! The statements of division (42_arithmetic.md R263, R264, R269). -/

namespace Sys2Proof.Machine

/-- Settles O24: the quotient and the remainder of `Nat` and `Int` fit their registers. -/
theorem quotients : Obligations.Quotients := by
  intro s
  refine ⟨fun e => ?_, fun e => ?_, fun e => ?_, fun e => ?_⟩
  · rw [← s.readRm8_value e]
    exact fun hd fits => ⟨_, rfl, State.div8_law (s.readRm8_changes e) hd fits⟩
  · rw [← s.readRm16_value e]
    exact fun hd fits => ⟨_, rfl, State.div16_law (s.readRm16_changes e) hd fits⟩
  · rw [← s.readRm8_value e]
    exact fun _ _ split small nonneg nonpos low high => ⟨_, rfl, State.idiv8_law (s.readRm8_changes e) small
      (tdiv_tmod_of_signs split small nonneg nonpos) low high⟩
  · rw [← s.readRm16_value e]
    exact fun _ _ split small nonneg nonpos low high => ⟨_, rfl, State.idiv16_law (s.readRm16_changes e) small
      (tdiv_tmod_of_signs split small nonneg nonpos) low high⟩

/-- Settles O25: each way of an error is `State.divideError8` or `State.divideError16`. -/
theorem divideErrors : Obligations.DivideErrors := by
  intro s hw drawn byte word
  have wf8 (e : Rm8) : Memory.wf (s.readRm8 e).2.mem = true := by rwa [State.readRm8, State.readLoc8_mem]
  have wf16 (e : Rm16) : Memory.wf (s.readRm16 e).2.mem = true := by rwa [State.readRm16, State.readLoc16_mem]
  refine ⟨fun e h => ?divByte, fun e h => ?divWord, fun e h => ?idivByte, fun e h => ?idivWord,
    _, rfl, State.divideError8_law (.refl s) hw⟩
  case divByte =>
    have read := s.readRm8_changes e
    rw [← s.readRm8_value e, ← read.read_reg16] at h
    exact ⟨_, congrArg Host.Outcome.next (State.div8_of_error _ h), State.divideError8_law read (wf8 e)⟩
  case divWord =>
    have read := s.readRm16_changes e
    rw [← s.readRm16_value e, ← read.read_dxAx] at h
    exact ⟨_, congrArg Host.Outcome.next (State.div16_of_error _ h), State.divideError16_law read (wf16 e)⟩
  case idivByte =>
    have read := s.readRm8_changes e
    rw [← s.readRm8_value e, ← read.read_reg16] at h
    exact ⟨_, congrArg Host.Outcome.next (State.idiv8_of_error _ h), State.divideError8_law read (wf8 e)⟩
  case idivWord =>
    have read := s.readRm16_changes e
    rw [← s.readRm16_value e, ← read.read_dxAx] at h
    exact ⟨_, congrArg Host.Outcome.next (State.idiv16_of_error _ h), State.divideError16_law read (wf16 e)⟩

end Sys2Proof.Machine
end

section
/-! Decimal and ASCII adjustment: the adjusted digits, and what each shared operation leaves (42_arithmetic.md R265 to
R270). -/

namespace Sys2Proof.Machine

/-- Flags drawn that are not among SF, ZF and PF leave what these tell. -/
theorem Describes.drawFlags {w : Nat} {s : State} {r : BitVec w} (h : Describes s r) {l : List Flag}
    (other : ∀ f ∈ [Flag.sf, .zf, .pf], f ∉ l) : Describes (s.drawFlags l) r := by
  rw [Describes, State.flag_drawFlags_ne s (other .sf (by decide)), State.flag_drawFlags_ne s (other .zf (by decide)),
    State.flag_drawFlags_ne s (other .pf (by decide))]
  exact h

theorem toNat_and_low (x : Byte) : (x &&& 0x0F).toNat = x.toNat % 16 := Nat.and_two_pow_sub_one_eq_mod x.toNat 4

section
variable (s : State)

theorem State.lowAdjust_iff : s.lowAdjust = true ↔ 9 < (s.reg8 .al).toNat % 16 ∨ s.flag .af = true := by
  simp [State.lowAdjust]

theorem State.highAdjust_iff : s.highAdjust = true ↔ 0x99 < (s.reg8 .al).toNat ∨ s.flag .cf = true := by
  simp [State.highAdjust]

/-! ## DAA and DAS -/

/-- The end of DAA and DAS: AF, CF and AL set, and OF a draw (42_arithmetic.md R265, R266). -/
def State.decimalAdjust (af cf : Bool) (v : Byte) : State :=
  ((((s.setFlag .af af).setFlag .cf cf).setReg8 .al v).setSzp v).drawFlag .ofl

theorem State.decimalAdjust_law (af cf : Bool) (v : Byte) :
    (s.decimalAdjust af cf v).reg8 .al = v ∧ (s.decimalAdjust af cf v).flag .af = af ∧
    (s.decimalAdjust af cf v).flag .cf = cf ∧ Describes (s.decimalAdjust af cf v) v ∧
    Drawn (s.decimalAdjust af cf v) s.draws [.ofl] ∧
    Changes { halves := [.al], flags := [.cf, .pf, .af, .zf, .sf, .ofl], draws := 1 } s (s.decimalAdjust af cf v) := by
  have set := (((s.setFlag_changes .af af).trans (State.setFlag_changes _ .cf cf)).trans
    (State.setReg8_changes _ .al v)).trans (State.setSzp_changes _ v)
  refine ⟨?_, ?_, ?_, (State.setSzp_describes _ v).drawFlags (l := [.ofl]) (by decide),
    set.drawn (l := [.ofl]) (by decide),
    (set.trans (State.drawFlag_changes _ .ofl)).mono (by constructor <;> simp [Effect.andThen])⟩
  · rw [State.decimalAdjust, State.reg8_drawFlag, State.reg8_setSzp, State.reg8_setReg8_self]
  · simp [State.decimalAdjust, State.flag_drawFlag, State.flag_setSzp, State.flag_setFlag]
  · simp [State.decimalAdjust, State.flag_drawFlag, State.flag_setSzp]

/-- AL after DAA, as the low and the high digit need adjusting. -/
def daaValue (low high : Bool) (a : Byte) : Byte :=
  let adjusted := if low then a + 6 else a
  if high then adjusted + 0x60 else adjusted

/-- AL after DAS. -/
def dasValue (low high : Bool) (a : Byte) : Byte :=
  let adjusted := if low then a - 6 else a
  if high then adjusted - 0x60 else adjusted

theorem toNat_daaValue (low high : Bool) (a : Byte) :
    (daaValue low high a).toNat = (a.toNat + (if low then 6 else 0) + (if high then 0x60 else 0)) % 256 := by
  cases low <;> cases high <;> simp only [daaValue, if_true, if_false, Bool.false_eq_true] <;> bv_omega

theorem toNat_dasValue (low high : Bool) (a : Byte) :
    (dasValue low high a).toNat = (a.toNat + 256 - (if low then 6 else 0) - (if high then 0x60 else 0)) % 256 := by
  cases low <;> cases high <;> simp only [dasValue, if_true, if_false, Bool.false_eq_true] <;> bv_omega

theorem exec_daa : exec .daa s = .next
    (s.decimalAdjust s.lowAdjust s.highAdjust (daaValue s.lowAdjust s.highAdjust (s.reg8 .al))) := rfl

/-- CF of DAS: without a high adjustment, the borrow out of the subtraction of 6 (42_arithmetic.md R266). -/
def State.dasCarry : Bool := s.highAdjust || (s.lowAdjust && (s.flag .cf || decide ((s.reg8 .al).toNat < 6)))

theorem exec_das : exec .das s = .next
    (s.decimalAdjust s.lowAdjust s.dasCarry (dasValue s.lowAdjust s.highAdjust (s.reg8 .al))) := rfl

theorem State.dasCarry_iff :
    s.dasCarry = true ↔ s.highAdjust = true ∨ (s.lowAdjust = true ∧ (s.reg8 .al).toNat < 6) := by
  have carried : s.flag .cf = true → s.highAdjust = true := fun h => s.highAdjust_iff.2 (.inr h)
  simp only [State.dasCarry, Bool.or_eq_true, Bool.and_eq_true, decide_eq_true_eq]
  tauto

/-! ## AAA and AAS -/

theorem State.asciiAdjust_law (x y : Byte) :
    (s.asciiAdjust x y).reg8 .al = (if s.lowAdjust then x else s.reg8 .al) &&& 0x0F ∧
    (s.asciiAdjust x y).reg8 .ah = (if s.lowAdjust then y else s.reg8 .ah) ∧
    (s.asciiAdjust x y).flag .af = s.lowAdjust ∧ (s.asciiAdjust x y).flag .cf = s.lowAdjust ∧
    Drawn (s.asciiAdjust x y) s.draws [.ofl, .sf, .zf, .pf] ∧
    Changes { regs := [.ax], flags := [.cf, .pf, .af, .zf, .sf, .ofl], draws := 4 } s (s.asciiAdjust x y) := by
  generalize adjusted : (if s.lowAdjust then (s.setReg8 .al x).setReg8 .ah y else s) = t
  have same : s.asciiAdjust x y = (((t.setFlag .af s.lowAdjust).setFlag .cf s.lowAdjust).setReg8 .al
      (t.reg8 .al &&& 0x0F)).drawFlags [.ofl, .sf, .zf, .pf] := by rw [← adjusted]; rfl
  have digits : t.reg8 .al = (if s.lowAdjust then x else s.reg8 .al) ∧
      t.reg8 .ah = (if s.lowAdjust then y else s.reg8 .ah) ∧ Changes { regs := [.ax] } s t := by
    rw [← adjusted]
    cases s.lowAdjust with
    | false => exact ⟨rfl, rfl, (Changes.refl s).mono (by constructor <;> simp)⟩
    | true =>
      exact ⟨s.reg8_setReg8_setReg8 (by decide) x y, State.reg8_setReg8_self ..,
        s.setReg8_setReg8_changes .al x .ah y rfl⟩
  obtain ⟨al, ah, changes⟩ := digits
  have set := ((changes.trans (t.setFlag_changes .af s.lowAdjust)).trans
    (State.setFlag_changes _ .cf s.lowAdjust)).trans (State.setReg8_changes _ .al (t.reg8 .al &&& 0x0F))
  rw [same]
  refine ⟨?_, ?_, ?_, ?_, set.drawn (by decide), (set.trans (State.drawFlags_changes _ _)).mono
    (by constructor <;> simp [Effect.andThen, Reg8.whole])⟩
  · rw [State.reg8_drawFlags, State.reg8_setReg8_self, al]
  · rw [State.reg8_drawFlags, State.reg8_setReg8, if_neg (by decide), State.reg8_setFlag, State.reg8_setFlag, ah]
  · rw [State.flag_drawFlags_ne _ (by decide), State.flag_setReg8, State.flag_setFlag, if_neg (by decide),
      State.flag_setFlag_self]
  · rw [State.flag_drawFlags_ne _ (by decide), State.flag_setReg8, State.flag_setFlag_self]

/-! ## AAM and AAD -/

/-- The end of AAM and AAD: AL and AH set, SF, ZF and PF of AL, and three draws (42_arithmetic.md R269, R270). -/
theorem State.setSzp_drawFlags_law {s t : State} {low high : Byte} (h : Changes { regs := [.ax] } s t)
    (al : t.reg8 .al = low) (ah : t.reg8 .ah = high) :
    ((t.setSzp low).drawFlags [.ofl, .af, .cf]).reg8 .al = low ∧
    ((t.setSzp low).drawFlags [.ofl, .af, .cf]).reg8 .ah = high ∧
    Describes ((t.setSzp low).drawFlags [.ofl, .af, .cf]) low ∧
    Drawn ((t.setSzp low).drawFlags [.ofl, .af, .cf]) s.draws [.ofl, .af, .cf] ∧
    Changes { regs := [.ax], flags := [.cf, .pf, .af, .zf, .sf, .ofl], draws := 3 } s
      ((t.setSzp low).drawFlags [.ofl, .af, .cf]) := by
  have set := h.trans (t.setSzp_changes low)
  rw [State.reg8_drawFlags, State.reg8_drawFlags, State.reg8_setSzp, State.reg8_setSzp]
  exact ⟨al, ah, (t.setSzp_describes low).drawFlags (by decide), set.drawn (by decide),
    (set.trans (State.drawFlags_changes _ _)).mono (by constructor <;> simp [Effect.andThen])⟩

end

end Sys2Proof.Machine
end

section
/-! The statements of decimal and ASCII adjustment (42_arithmetic.md R265 to R270). -/

namespace Sys2Proof.Machine

/-- Settles O26: the two conditions are `State.lowAdjust` and `State.highAdjust`. -/
theorem decimalAdjust : Obligations.DecimalAdjust := by
  intro s
  dsimp only
  rw [← s.lowAdjust_iff, ← s.highAdjust_iff]
  have byte : (s.reg8 .al).toNat < 256 := (s.reg8 .al).isLt
  refine ⟨?daa, ?das, ?aaa, ?aas⟩
  case daa =>
    obtain ⟨al, af, cf, describes, rest⟩ :=
      s.decimalAdjust_law s.lowAdjust s.highAdjust (daaValue s.lowAdjust s.highAdjust (s.reg8 .al))
    refine ⟨_, exec_daa s, ?_⟩
    rw [al, af, cf, toNat_daaValue]
    refine ⟨fun l h => ?_, fun l h => ?_, fun l h => ?_, fun l h => ?_, .rfl, .rfl, describes, rest⟩ <;>
      simp [l, h, byte]
  case das =>
    obtain ⟨al, af, cf, describes, rest⟩ :=
      s.decimalAdjust_law s.lowAdjust s.dasCarry (dasValue s.lowAdjust s.highAdjust (s.reg8 .al))
    refine ⟨_, exec_das s, ?_⟩
    rw [al, af, cf, toNat_dasValue, s.dasCarry_iff]
    refine ⟨fun l h => ?_, fun l h => ?_, fun l h => ?_, fun l h => ?_, .rfl, .rfl, describes, rest⟩ <;>
      simp [l, h, byte]
  case aaa =>
    obtain ⟨al, ah, af, cf, rest⟩ := s.asciiAdjust_law (s.reg8 .al + 6) (s.reg8 .ah + 1)
    refine ⟨_, rfl, ?_⟩
    rw [al, ah, af, cf, toNat_and_low]
    refine ⟨fun l => ?_, fun l => ?_, .rfl, .rfl, rest⟩
    · rw [if_pos l, if_pos l]
      constructor <;> bv_omega
    · rw [if_neg l, if_neg l]
      exact ⟨rfl, rfl⟩
  case aas =>
    obtain ⟨al, ah, af, cf, rest⟩ := s.asciiAdjust_law (s.reg8 .al - 6) (s.reg8 .ah - 1)
    refine ⟨_, rfl, ?_⟩
    rw [al, ah, af, cf, toNat_and_low]
    refine ⟨fun l => ?_, fun l => ?_, .rfl, .rfl, rest⟩
    · rw [if_pos l, if_pos l]
      constructor <;> bv_omega
    · rw [if_neg l, if_neg l]
      exact ⟨rfl, rfl⟩

/-- Settles O27: AL and AH are the digits, and the flags those of `State.setSzp_drawFlags_law`. -/
theorem asciiMultiplyDivide : Obligations.AsciiMultiplyDivide := by
  intro s i
  constructor
  · intro hi
    have fits : (s.reg8 .al).toNat < 2 ^ 8 * i.toNat :=
      Nat.lt_of_lt_of_le (s.reg8 .al).isLt (Nat.le_mul_of_pos_right _ (BitVec.toNat_pos_of_ne_zero hi))
    obtain ⟨al, ah, rest⟩ := State.setSzp_drawFlags_law
      (s.setReg8_setReg8_changes .ah (BitVec.ofNat 8 ((s.reg8 .al).toNat / i.toNat)) .al
        (BitVec.ofNat 8 ((s.reg8 .al).toNat % i.toNat)) rfl)
      (State.reg8_setReg8_self ..) (State.reg8_setReg8_setReg8 _ (by decide) ..)
    refine ⟨_, congrArg Host.Outcome.next (if_neg hi), ?_⟩
    rw [al, ah, toNat_ofNat_div fits, toNat_ofNat_mod hi]
    exact ⟨(Nat.div_add_mod ..).symm, Nat.mod_lt _ (BitVec.toNat_pos_of_ne_zero hi), rest⟩
  · obtain ⟨al, ah, rest⟩ := State.setSzp_drawFlags_law
      (s.setReg8_setReg8_changes .al (s.reg8 .al + s.reg8 .ah * i) .ah 0 rfl)
      (State.reg8_setReg8_setReg8 _ (by decide) ..) (State.reg8_setReg8_self ..)
    refine ⟨_, rfl, ?_⟩
    rw [State.toNat_ax, al, ah]
    refine ⟨?_, rest⟩
    simp [BitVec.toNat_add, BitVec.toNat_mul]

end Sys2Proof.Machine
end

section
/-! TEST, and the shifts and rotates: each instruction as its shared operation, and the statements about them (43_logic.md
R303, R305 to R312). -/

namespace Sys2Proof.Machine

/-! ## Instructions -/

section
variable {i : Instr} (s : State)

theorem exec_test8 {dst : Rm8} {src : Src8} (h : asTest8 i = some (dst, src)) :
    exec i s = .next (s.test8 (s.loc dst) (s.src8 src)) := by
  cases i with
  | testEbGb | testAlIb | testEbIb => cases h; rfl
  | _ => cases h

theorem exec_test16 {dst : Rm16} {src : Src16} (h : asTest16 i = some (dst, src)) :
    exec i s = .next (s.test16 (s.loc dst) (s.src16 src)) := by
  cases i with
  | testEwGw | testAxIw | testEwIw => cases h; rfl
  | _ => cases h

theorem exec_shift8 {op : ShiftOp} {e : Rm8} {byCl : Bool} (h : asShift8 i = some (op, e, byCl)) :
    exec i s = .next (s.shift8 op e (s.shiftCount byCl)) := by
  cases i with
  | rolEb1 | rorEb1 | rclEb1 | rcrEb1 | shlEb1 | shrEb1 | sarEb1
  | rolEbCl | rorEbCl | rclEbCl | rcrEbCl | shlEbCl | shrEbCl | sarEbCl => cases h; rfl
  | _ => cases h

theorem exec_shift16 {op : ShiftOp} {e : Rm16} {byCl : Bool} (h : asShift16 i = some (op, e, byCl)) :
    exec i s = .next (s.shift16 op e (s.shiftCount byCl)) := by
  cases i with
  | rolEw1 | rorEw1 | rclEw1 | rcrEw1 | shlEw1 | shrEw1 | sarEw1
  | rolEwCl | rorEwCl | rclEwCl | rcrEwCl | shlEwCl | shrEwCl | sarEwCl => cases h; rfl
  | _ => cases h

end

/-! ## Statements -/

/-- Settles O20: the forms are `State.test8` and `State.test16`. -/
theorem testSetsFlags : Obligations.TestSetsFlags :=
  ⟨fun _ dst src s h => ⟨_, exec_test8 s h, s.test8_law (s.loc dst) (s.src8 src)⟩,
    fun _ dst src s h => ⟨_, exec_test16 s h, s.test16_law (s.loc dst) (s.src16 src)⟩⟩

/-- Settles O29: the forms are `State.shift8`, whose count of 0 is a read. -/
theorem shiftBytes : Obligations.ShiftBytes := by
  intro i op e byCl s h hw x n
  refine ⟨s.shift8 op e n, exec_shift8 s h, fun zero => ?_, fun steps => ?_⟩
  · rw [zero]
    exact s.shift8_zero op e
  · obtain ⟨value, carry, overflow, describes, changes⟩ := s.shift8_law op e steps hw
    obtain ⟨drawnOf, drawnAf⟩ := s.shift8_drawn op e steps
    exact ⟨value, carry, overflow, drawnOf, fun shift => ⟨describes shift, drawnAf shift⟩, changes⟩

/-- Settles O30: the forms are `State.shift16`, whose count of 0 is a read. -/
theorem shiftWords : Obligations.ShiftWords := by
  intro i op e byCl s h hw x n
  refine ⟨s.shift16 op e n, exec_shift16 s h, fun zero => ?_, fun steps => ?_⟩
  · rw [zero]
    exact s.shift16_zero op e
  · obtain ⟨value, carry, overflow, describes, changes⟩ := s.shift16_law op e steps hw
    obtain ⟨drawnOf, drawnAf⟩ := s.shift16_drawn op e steps
    exact ⟨value, carry, overflow, drawnOf, fun shift => ⟨describes shift, drawnAf shift⟩, changes⟩

end Sys2Proof.Machine
end

section
/-! The string instructions: one element and the step of the index registers, and the turns of a repetition
(44_string.md R340 to R348). -/

namespace Sys2Proof.Machine

/-! ## The step of an index register -/

section
variable {e : Effect} {s t : State}

theorem State.reg16_add_delta (s : State) (r : Reg16) (k : Word) : s.reg16 r + s.delta k = s.stepped r k := by
  rw [State.delta, State.stepped]
  split
  · bv_omega
  · rfl

/-- An index register steps from where it stood before the element was accessed (44_string.md R340). -/
theorem Changes.stepIndex (h : Changes e s t) {r : Reg16} (k : Word) (reg : t.reg16 r = s.reg16 r)
    (df : t.flag .df = s.flag .df) :
    (t.setReg16 r (t.reg16 r + t.delta k)).reg16 r = s.stepped r k ∧
    Changes (e.andThen { regs := [r] }) s (t.setReg16 r (t.reg16 r + t.delta k)) := by
  refine ⟨?_, h.trans (t.setReg16_changes r _)⟩
  rw [State.reg16_setReg16_self, State.reg16_add_delta, State.stepped, State.stepped, df, reg]

theorem Changes.stepSi (h : Changes e s t) (k : Word) (si : t.reg16 .si = s.reg16 .si := by simp)
    (df : t.flag .df = s.flag .df := by simp) :
    (t.stepSi k).reg16 .si = s.stepped .si k ∧ Changes (e.andThen { regs := [.si] }) s (t.stepSi k) :=
  h.stepIndex k si df

theorem Changes.stepDi (h : Changes e s t) (k : Word) (di : t.reg16 .di = s.reg16 .di := by simp)
    (df : t.flag .df = s.flag .df := by simp) :
    (t.stepDi k).reg16 .di = s.stepped .di k ∧ Changes (e.andThen { regs := [.di] }) s (t.stepDi k) :=
  h.stepIndex k di df

theorem Changes.stepSiDi (h : Changes e s t) (k : Word) (si : t.reg16 .si = s.reg16 .si := by simp)
    (di : t.reg16 .di = s.reg16 .di := by simp) (df : t.flag .df = s.flag .df := by simp) :
    ((t.stepSi k).stepDi k).reg16 .si = s.stepped .si k ∧ ((t.stepSi k).stepDi k).reg16 .di = s.stepped .di k ∧
    Changes ((e.andThen { regs := [.si] }).andThen { regs := [.di] }) s ((t.stepSi k).stepDi k) :=
  have first := h.stepSi k si df
  ⟨first.1, first.2.stepDi k di df⟩

end

/-! ## One element (44_string.md R341 to R345) -/

section
variable (s : State)

theorem State.movs8_law (hw : Memory.wf s.mem = true) :
    s.movs8.memByte (phys (s.seg .es) (s.reg16 .di)) = s.memByte (phys (s.seg (s.ovr .ds)) (s.reg16 .si)) ∧
    s.movs8.reg16 .si = s.stepped .si 1 ∧ s.movs8.reg16 .di = s.stepped .di 1 ∧
    Changes { regs := [.si, .di], stores := [phys (s.seg .es) (s.reg16 .di)],
              last := some (phys (s.seg .es) (s.reg16 .di)) } s s.movs8 :=
  have moved := (s.read8_changes (s.seg (s.ovr .ds)) (s.reg16 .si)).trans
    (State.write8_changes _ (s.seg .es) (s.reg16 .di) s.source8.1 hw)
  ⟨State.at8_writeLoc8 s.source8.2 (.mem (s.seg .es) (s.reg16 .di)) s.source8.1 hw, moved.stepSiDi 1⟩

theorem State.movs16_law (hw : Memory.wf s.mem = true) :
    s.movs16.wordAt (s.seg .es) (s.reg16 .di) = s.wordAt (s.seg (s.ovr .ds)) (s.reg16 .si) ∧
    s.movs16.reg16 .si = s.stepped .si 2 ∧ s.movs16.reg16 .di = s.stepped .di 2 ∧
    Changes { regs := [.si, .di],
              stores := [phys (s.seg .es) (s.reg16 .di), phys (s.seg .es) (s.reg16 .di + 1)],
              last := some (phys (s.seg .es) (s.reg16 .di + 1)) } s s.movs16 :=
  have moved := (s.read16_changes (s.seg (s.ovr .ds)) (s.reg16 .si)).trans
    (State.write16_changes _ (s.seg .es) (s.reg16 .di) s.source16.1 hw)
  ⟨State.wordAt_write16 s.source16.2 (s.seg .es) (s.reg16 .di) s.source16.1 hw,
    moved.stepSiDi 2⟩

theorem State.stos8_law (hw : Memory.wf s.mem = true) :
    s.stos8.memByte (phys (s.seg .es) (s.reg16 .di)) = s.reg8 .al ∧ s.stos8.reg16 .di = s.stepped .di 1 ∧
    Changes { regs := [.di], stores := [phys (s.seg .es) (s.reg16 .di)],
              last := some (phys (s.seg .es) (s.reg16 .di)) } s s.stos8 :=
  ⟨s.at8_writeLoc8 (.mem (s.seg .es) (s.reg16 .di)) (s.reg8 .al) hw,
    (s.write8_changes (s.seg .es) (s.reg16 .di) (s.reg8 .al) hw).stepDi 1⟩

theorem State.stos16_law (hw : Memory.wf s.mem = true) :
    s.stos16.wordAt (s.seg .es) (s.reg16 .di) = s.reg16 .ax ∧ s.stos16.reg16 .di = s.stepped .di 2 ∧
    Changes { regs := [.di],
              stores := [phys (s.seg .es) (s.reg16 .di), phys (s.seg .es) (s.reg16 .di + 1)],
              last := some (phys (s.seg .es) (s.reg16 .di + 1)) } s s.stos16 :=
  ⟨s.wordAt_write16 (s.seg .es) (s.reg16 .di) (s.reg16 .ax) hw,
    (s.write16_changes (s.seg .es) (s.reg16 .di) (s.reg16 .ax) hw).stepDi 2⟩

theorem State.lods8_law :
    s.lods8.reg8 .al = s.memByte (phys (s.seg (s.ovr .ds)) (s.reg16 .si)) ∧ s.lods8.reg16 .si = s.stepped .si 1 ∧
    Changes { regs := [.si], halves := [.al], last := some (phys (s.seg (s.ovr .ds)) (s.reg16 .si)) } s s.lods8 :=
  have loaded := (s.read8_changes (s.seg (s.ovr .ds)) (s.reg16 .si)).trans (State.setReg8_changes _ .al s.source8.1)
  ⟨s.source8.2.reg8_setReg8_self .al s.source8.1, loaded.stepSi 1 rfl⟩

theorem State.lods16_law :
    s.lods16.reg16 .ax = s.wordAt (s.seg (s.ovr .ds)) (s.reg16 .si) ∧ s.lods16.reg16 .si = s.stepped .si 2 ∧
    Changes { regs := [.si, .ax], last := some (phys (s.seg (s.ovr .ds)) (s.reg16 .si + 1)) } s s.lods16 :=
  have loaded := (s.read16_changes (s.seg (s.ovr .ds)) (s.reg16 .si)).trans
    (State.setReg16_changes _ .ax s.source16.1)
  have stepped := loaded.stepSi 2 rfl
  ⟨s.source16.2.reg16_setReg16_self .ax s.source16.1, stepped.1,
    stepped.2.mono (by constructor <;> simp [Effect.andThen])⟩

/-- A comparison after a read takes the flags of the difference, and leaves the latch to the read. -/
theorem Changes.compare {w : Nat} {last : Option Phys} {s t : State} (read : Changes { last := last } s t) (hw : 4 < w)
    (a b : BitVec w) :
    AluOp.Sets .cmp a b false s.draws (t.subB a b false).2 ∧
    Changes { flags := sixFlags, last := last } s (t.subB a b false).2 :=
  ⟨t.alu_sets hw .cmp a b, (read.trans (t.subB_changes a b false)).mono (by constructor <;> simp [Effect.andThen])⟩

theorem State.cmps8_law :
    AluOp.Sets .cmp (s.memByte (phys (s.seg (s.ovr .ds)) (s.reg16 .si))) (s.memByte (phys (s.seg .es) (s.reg16 .di)))
      false s.draws s.cmps8 ∧
    s.cmps8.reg16 .si = s.stepped .si 1 ∧ s.cmps8.reg16 .di = s.stepped .di 1 ∧
    Changes { regs := [.si, .di], flags := sixFlags, last := some (phys (s.seg .es) (s.reg16 .di)) } s s.cmps8 := by
  have second : s.source8.2.dest8.1 = s.memByte (phys (s.seg .es) (s.reg16 .di)) := by
    simp [State.dest8, State.source8]
  obtain ⟨sets, changes⟩ := ((s.read8_changes (s.seg (s.ovr .ds)) (s.reg16 .si)).trans
    (State.read8_changes _ (s.seg .es) (s.reg16 .di))).compare (by decide) s.source8.1 s.source8.2.dest8.1
  rw [← second]
  exact ⟨sets, changes.stepSiDi 1 (df := by simp [State.flag_subB])⟩

theorem State.cmps16_law :
    AluOp.Sets .cmp (s.wordAt (s.seg (s.ovr .ds)) (s.reg16 .si)) (s.wordAt (s.seg .es) (s.reg16 .di)) false s.draws
      s.cmps16 ∧
    s.cmps16.reg16 .si = s.stepped .si 2 ∧ s.cmps16.reg16 .di = s.stepped .di 2 ∧
    Changes { regs := [.si, .di], flags := sixFlags, last := some (phys (s.seg .es) (s.reg16 .di + 1)) } s
      s.cmps16 := by
  have second : s.source16.2.dest16.1 = s.wordAt (s.seg .es) (s.reg16 .di) := by
    simp [State.dest16, State.source16, State.wordAt]
  obtain ⟨sets, changes⟩ := ((s.read16_changes (s.seg (s.ovr .ds)) (s.reg16 .si)).trans
    (State.read16_changes _ (s.seg .es) (s.reg16 .di))).compare (by decide) s.source16.1 s.source16.2.dest16.1
  rw [← second]
  exact ⟨sets, changes.stepSiDi 2 (df := by simp [State.flag_subB])⟩

theorem State.scas8_law :
    AluOp.Sets .cmp (s.reg8 .al) (s.memByte (phys (s.seg .es) (s.reg16 .di))) false s.draws s.scas8 ∧
    s.scas8.reg16 .di = s.stepped .di 1 ∧
    Changes { regs := [.di], flags := sixFlags, last := some (phys (s.seg .es) (s.reg16 .di)) } s s.scas8 :=
  have compared := (s.read8_changes (s.seg .es) (s.reg16 .di)).compare (by decide) (s.reg8 .al) s.dest8.1
  ⟨compared.1, compared.2.stepDi 1 (df := by simp [State.flag_subB])⟩

theorem State.scas16_law :
    AluOp.Sets .cmp (s.reg16 .ax) (s.wordAt (s.seg .es) (s.reg16 .di)) false s.draws s.scas16 ∧
    s.scas16.reg16 .di = s.stepped .di 2 ∧
    Changes { regs := [.di], flags := sixFlags, last := some (phys (s.seg .es) (s.reg16 .di + 1)) } s s.scas16 :=
  have compared := (s.read16_changes (s.seg .es) (s.reg16 .di)).compare (by decide) (s.reg16 .ax) s.dest16.1
  ⟨compared.1, compared.2.stepDi 2 (df := by simp [State.flag_subB])⟩

end

/-! ## The repeat prefix commutes with the updates of an element -/

section
variable (s : State) (p : Rep)

@[simp] theorem State.ovr_setRep (g : Seg) : (s.setRep p).ovr g = s.ovr g := rfl

@[simp] theorem State.delta_setRep (k : Word) : (s.setRep p).delta k = s.delta k := rfl

@[simp] theorem State.setReg16_setRep (r : Reg16) (v : Word) :
    (s.setRep p).setReg16 r v = (s.setReg16 r v).setRep p := rfl

@[simp] theorem State.setReg8_setRep (r : Reg8) (v : Byte) : (s.setRep p).setReg8 r v = (s.setReg8 r v).setRep p := rfl

@[simp] theorem State.read8_setRep (x o : Word) :
    (s.setRep p).read8 x o = ((s.read8 x o).1, (s.read8 x o).2.setRep p) := rfl

@[simp] theorem State.read16_setRep (x o : Word) :
    (s.setRep p).read16 x o = ((s.read16 x o).1, (s.read16 x o).2.setRep p) := rfl

@[simp] theorem State.write8_setRep (x o : Word) (v : Byte) :
    (s.setRep p).write8 x o v = (s.write8 x o v).setRep p := rfl

@[simp] theorem State.write16_setRep (x o v : Word) : (s.setRep p).write16 x o v = (s.write16 x o v).setRep p := rfl

@[simp] theorem State.setFlag_setRep (f : Flag) (b : Bool) : (s.setRep p).setFlag f b = (s.setFlag f b).setRep p := rfl

@[simp] theorem State.subB_setRep {w : Nat} (a b : BitVec w) (c : Bool) :
    (s.setRep p).subB a b c = ((s.subB a b c).1, (s.subB a b c).2.setRep p) := by
  simp [State.subB, State.setSzp]

end

/-! ## Repetition (44_string.md R346 to R348) -/

section
variable {element : State → State} {compares : Bool} {p : Rep} {s : State}

/-- What a repetition relies on in an element: the repeat prefix does not matter to it, and it leaves CX, the context
and the events that suspend. -/
structure Repeatable (element : State → State) : Prop where
  setRep : ∀ s p, element (s.setRep p) = (element s).setRep p
  cx : ∀ s, (element s).reg16 .cx = s.reg16 .cx
  ctx : ∀ s, (element s).ctx = s.ctx
  nmiLatched : ∀ s, (element s).nmiLatched = s.nmiLatched
  intr : ∀ s, (element s).intr = s.intr

/-- The element of a string instruction (44_string.md R341 to R345). -/
def stringElement : Instr → State → State
  | .movsb => State.movs8
  | .movsw => State.movs16
  | .cmpsb => State.cmps8
  | .cmpsw => State.cmps16
  | .scasb => State.scas8
  | .scasw => State.scas16
  | .lodsb => State.lods8
  | .lodsw => State.lods16
  | .stosb => State.stos8
  | .stosw => State.stos16
  | _ => id

/-- Every string instruction is the run of its element (44_string.md R346, R347). -/
theorem exec_string {i : Instr} {k : Nat} (h : asString i = some (k, compares)) (s : State) :
    exec i s = .next (s.runString compares (stringElement i)) := by
  cases i with
  | movsb | movsw | cmpsb | cmpsw | scasb | scasw | lodsb | lodsw | stosb | stosw => cases h; rfl
  | _ => cases h

/-- The updates of an element commute with the repeat prefix, and write neither CX, the context nor an event. -/
theorem stringElement_repeatable {i : Instr} {k : Nat} (h : asString i = some (k, compares)) :
    Repeatable (stringElement i) := by
  cases i with
  | movsb | movsw | cmpsb | cmpsw | scasb | scasw | lodsb | lodsw | stosb | stosw =>
    constructor <;> intros <;>
      simp [stringElement, State.movs8, State.movs16, State.cmps8, State.cmps16, State.scas8, State.scas16, State.lods8,
        State.lods16, State.stos8, State.stos16, State.source8, State.source16, State.dest8, State.dest16, State.stepSi,
        State.stepDi, State.reg16_setReg16, State.reg16_setReg8, Reg8.whole]
  | _ => cases h

theorem State.runString_of_none (h : s.ctx.rep = none) : s.runString compares element = element s := by
  rw [State.runString, h]

theorem exec_string_of_none {i : Instr} {k : Nat} (h : asString i = some (k, compares)) (single : s.ctx.rep = none) :
    exec i s = .next (stringElement i s) :=
  (exec_string h s).trans (congrArg _ (State.runString_of_none single))

theorem State.runString_of_some (h : s.ctx.rep = some p) :
    s.runString compares element = State.repeatString p compares element (s.reg16 .cx).toNat s := by
  rw [State.runString, h]

theorem State.runString_of_cx_zero (h : s.ctx.rep = some p) (zero : s.reg16 .cx = 0) :
    s.runString compares element = s := by
  rw [State.runString_of_some h, zero]
  rfl

/-- One turn of a repetition: an element, and CX lowered (44_string.md R347). -/
def State.turn (element : State → State) (s : State) : State :=
  (element s).setReg16 .cx ((element s).reg16 .cx - 1)

theorem Rep.ends_iff {zf : Bool} : p.ends zf = true ↔ zf = decide (p = .repne) := by
  cases p <;> cases zf <;> decide

theorem State.suspends_iff : s.suspends = true ↔ s.nmiLatched = true ∨ (s.intr = true ∧ s.flag .ifl = true) ∨
    (Config.repTrapPerIteration = true ∧ s.ctx.tfStart = true) := by
  simp only [State.suspends, Bool.or_eq_true, Bool.and_eq_true, or_assoc, and_comm (a := s.ctx.tfStart = true)]

namespace Repeatable

variable (keeps : Repeatable element)
include keeps

theorem turn_cx (s : State) : (s.turn element).reg16 .cx = s.reg16 .cx - 1 := by
  rw [State.turn, State.reg16_setReg16_self, keeps.cx]

theorem turn_ctx (s : State) : (s.turn element).ctx = s.ctx := keeps.ctx s

theorem turn_nmiLatched (s : State) : (s.turn element).nmiLatched = s.nmiLatched := keeps.nmiLatched s

theorem turn_intr (s : State) : (s.turn element).intr = s.intr := keeps.intr s

/-- The turn, computed without the prefix. -/
theorem turn_eq (hp : s.ctx.rep = some p) {u : State}
    (hu : u = element { s with ctx := { s.ctx with rep := none } }) :
    { u with ctx := s.ctx, regs := u.regs.set .cx (s.reg16 .cx - 1) } = s.turn element := by
  have again : State.setRep { s with ctx := { s.ctx with rep := none } } p = s := by
    rw [State.setRep, ← hp]
  have same : element s = u.setRep p := by rw [hu, ← keeps.setRep, again]
  have ctx : s.ctx = { u.ctx with rep := some p } := by rw [← keeps.ctx s, same, State.setRep_ctx]
  rw [State.turn, keeps.cx, same, ctx]
  rfl

/-- The loop of R347, unrolled by one turn: its ends, its suspension, and the same run again. -/
theorem runString_turn (hp : s.ctx.rep = some p) (positive : s.reg16 .cx ≠ 0) : s.runString compares element =
    if (compares && p.ends ((s.turn element).flag .zf)) = true ∨ (s.turn element).reg16 .cx = 0 then s.turn element
    else if (s.turn element).suspends = true then (s.turn element).suspend
    else (s.turn element).runString compares element := by
  have again : (s.turn element).ctx.rep = some p := by rw [keeps.turn_ctx, hp]
  have count : (s.reg16 .cx).toNat = ((s.turn element).reg16 .cx).toNat + 1 := by
    rw [keeps.turn_cx]
    bv_omega
  rw [State.runString_of_some hp, count, State.runString_of_some again, ite_or]
  rfl

end Repeatable

end

/-! ## REP STOSB (44_string.md R345, R347) -/

/-- From `s` to `t`, the `n` bytes from ES:DI up have been filled with AL. -/
structure Filled (n : Nat) (s t : State) : Prop where
  cx : t.reg16 .cx = 0
  di : t.reg16 .di = s.reg16 .di + BitVec.ofNat 16 n
  mem : ∀ a, t.memByte a =
    if ∃ k < n, a = phys (s.seg .es) (s.reg16 .di + BitVec.ofNat 16 k) then s.reg8 .al else s.memByte a
  regs : ∀ r, r ≠ .cx → r ≠ .di → t.reg16 r = s.reg16 r
  flags : t.flags = s.flags

section
variable {n : Nat} {p : Rep} {s : State} (df : s.flag .df = false) (hw : Memory.wf s.mem = true)
include df

/-- A turn of STOSB going up. -/
theorem State.turn_stos8 : s.turn State.stos8 =
    ((s.write8 (s.seg .es) (s.reg16 .di) (s.reg8 .al)).setReg16 .di (s.reg16 .di + 1)).setReg16 .cx
      (s.reg16 .cx - 1) := by
  simp [State.turn, State.stos8, State.stepDi, State.delta, df, State.reg16_setReg16]

theorem State.suspends_turn_stos8 : (s.turn State.stos8).suspends = s.suspends := by
  rw [State.turn_stos8 df]
  simp [State.suspends]

theorem State.reg16_turn_stos8 (r : Reg16) : (s.turn State.stos8).reg16 r =
    if r = .cx then s.reg16 .cx - 1 else if r = .di then s.reg16 .di + 1 else s.reg16 r := by
  rw [State.turn_stos8 df, State.reg16_setReg16, State.reg16_setReg16, State.reg16_write8]

include hw

theorem State.turn_stos8_wf : Memory.wf (s.turn State.stos8).mem = true := by
  rw [State.turn_stos8 df]
  exact s.write8_wf _ _ _ hw

theorem State.memByte_turn_stos8 (a : Phys) : (s.turn State.stos8).memByte a =
    if a = phys (s.seg .es) (s.reg16 .di) then s.reg8 .al else s.memByte a := by
  rw [State.turn_stos8 df]
  exact s.memByte_write8 _ _ _ a hw

/-- A turn fills the byte at ES:DI, and the turns after it the `n` bytes above. -/
theorem Filled.afterTurn {t : State} (h : Filled n (s.turn State.stos8) t) : Filled (n + 1) s t := by
  obtain ⟨cx, di, mem, regs, flags⟩ := h
  have first : (s.turn State.stos8).reg16 .di = s.reg16 .di + 1 := State.reg16_turn_stos8 df .di
  have al : (s.turn State.stos8).reg8 .al = s.reg8 .al := congrArg lo8 (State.reg16_turn_stos8 df .ax)
  have above (k : Nat) : s.reg16 .di + 1 + BitVec.ofNat 16 k = s.reg16 .di + BitVec.ofNat 16 (k + 1) := by bv_omega
  refine ⟨cx, by rw [di, first, above], fun a => ?_, fun r hc hd => ?_, ?_⟩
  · have bytes : (∃ k < n + 1, a = phys (s.seg .es) (s.reg16 .di + BitVec.ofNat 16 k)) ↔
        (∃ k < n, a = phys (s.seg .es) (s.reg16 .di + BitVec.ofNat 16 (k + 1))) ∨
          a = phys (s.seg .es) (s.reg16 .di) := by
      rw [Nat.exists_lt_succ_left, or_comm, BitVec.add_zero]
    have seg : (s.turn State.stos8).seg .es = s.seg .es := rfl
    rw [mem, first, seg, al, State.memByte_turn_stos8 df hw, if_congr bytes rfl rfl, ite_or]
    simp only [above]
  · rw [regs r hc hd, State.reg16_turn_stos8 df, if_neg hc, if_neg hd]
  · rw [flags, State.turn_stos8 df]
    simp

/-- With no event pending the loop fills CX bytes, turn by turn. -/
theorem State.runString_stos8_filled (hp : s.ctx.rep = some p) (quiet : s.suspends = false)
    (count : (s.reg16 .cx).toNat = n) : Filled n s (s.runString false State.stos8) := by
  have keeps : Repeatable State.stos8 := stringElement_repeatable (i := .stosb) rfl
  induction n generalizing s with
  | zero =>
    have zero : s.reg16 .cx = 0 := BitVec.eq_of_toNat_eq count
    rw [State.runString_of_cx_zero hp zero]
    exact ⟨zero, (BitVec.add_zero _).symm, fun a => by simp, fun _ _ _ => rfl, rfl⟩
  | succ n ih =>
    have again : (s.turn State.stos8).ctx.rep = some p := by rw [keeps.turn_ctx, hp]
    have still : (s.turn State.stos8).suspends = false := by rw [State.suspends_turn_stos8 df, quiet]
    have positive : s.reg16 .cx ≠ 0 := by rintro zero; rw [zero] at count; cases count
    have rest : s.runString false State.stos8 = (s.turn State.stos8).runString false State.stos8 := by
      rw [keeps.runString_turn hp positive, still]
      split
      · next ended =>
        exact (State.runString_of_cx_zero again (ended.resolve_left Bool.false_ne_true)).symm
      · rfl
    rw [rest]
    exact .afterTurn df hw (ih (by rw [State.turn_stos8 df]; simpa using df) (State.turn_stos8_wf df hw) again still
      (by rw [keeps.turn_cx]; bv_omega))

end

end Sys2Proof.Machine
end

section
/-! The statements of the string instructions (44_string.md R340 to R348). -/

namespace Sys2Proof.Machine

/-- Settles O37: without a prefix each form is its element. -/
theorem stringMoves : Obligations.StringMoves := fun s hw single =>
  ⟨⟨_, exec_string_of_none rfl single, s.movs8_law hw⟩, ⟨_, exec_string_of_none rfl single, s.movs16_law hw⟩,
    ⟨_, exec_string_of_none rfl single, s.stos8_law hw⟩, ⟨_, exec_string_of_none rfl single, s.stos16_law hw⟩,
    ⟨_, exec_string_of_none rfl single, s.lods8_law⟩, _, exec_string_of_none rfl single, s.lods16_law⟩

/-- Settles O38: without a prefix each form is its element. -/
theorem stringCompares : Obligations.StringCompares := fun s single =>
  ⟨⟨_, exec_string_of_none rfl single, s.cmps8_law⟩, ⟨_, exec_string_of_none rfl single, s.cmps16_law⟩,
    ⟨_, exec_string_of_none rfl single, s.scas8_law⟩, _, exec_string_of_none rfl single, s.scas16_law⟩

/-- Settles O39: the run unrolled by one turn, which is the same with the prefix set aside and put back. -/
theorem repeatUnrolls : Obligations.RepeatUnrolls := by
  intro i k compares p s hi hp
  have keeps := stringElement_repeatable hi
  refine ⟨fun zero => ?none, fun positive => ⟨_, exec_string_of_none hi rfl, ?_⟩⟩
  case none => rw [exec_string hi, State.runString_of_cx_zero hp zero]
  rw [keeps.turn_eq hp rfl]
  intro v ends pending
  have ends_iff : ends ↔ (compares && p.ends (v.flag .zf)) = true ∨ v.reg16 .cx = 0 := by
    rw [Bool.and_eq_true, Rep.ends_iff]
  have pending_iff : pending ↔ v.suspends = true := by
    rw [State.suspends_iff, keeps.turn_nmiLatched, keeps.turn_intr, keeps.turn_ctx]
  rw [exec_string hi, exec_string hi, keeps.runString_turn hp positive, ends_iff, pending_iff]
  exact ⟨fun ended => by rw [if_pos ended], fun goes suspended => by rw [if_neg goes, if_pos suspended]; rfl,
    fun goes quiet => by rw [if_neg goes, if_neg quiet]⟩

/-- Settles O40: no event suspends the loop, which then fills as many bytes as CX says. -/
theorem repStosFills : Obligations.RepStosFills := by
  intro s p hw hp df nmi intr tf
  have quiet : s.suspends = false := by
    rw [← Bool.not_eq_true, State.suspends_iff, nmi, tf]
    rcases intr with h | h <;> simp [h]
  obtain ⟨cx, di, mem, regs, flags⟩ := State.runString_stos8_filled df hw hp quiet rfl
  refine ⟨_, rfl, cx, ?_, fun k hk => ?_, fun a other => ?_, regs, flags⟩
  · rw [di, BitVec.ofNat_toNat, BitVec.setWidth_eq]
  · rw [mem, if_pos ⟨k, hk, rfl⟩]
  · rw [mem, if_neg (fun ⟨k, hk, same⟩ => other k hk same)]

end Sys2Proof.Machine
end

section
/-! Control transfer: what a jump, a call and a return leave after what they read, and the conditions of the conditional
jumps and loops (45_control.md R370 to R409; 40_pipeline.md R165). -/

namespace Sys2Proof.Machine

/-! ## Targets -/

theorem ofInt_toNat_add {w : Nat} (a : BitVec w) (n : Int) : BitVec.ofInt w (a.toNat + n) = a + BitVec.ofInt w n := by
  rw [BitVec.ofInt_add, BitVec.ofInt_natCast, BitVec.ofNat_toNat, BitVec.setWidth_eq]

section
variable {e : Effect} {s t : State} (h : Changes e s t)
include h

theorem Changes.ip (quiet : e.transfer = false) : t.ip = s.ip := by
  obtain ⟨pc, queue, -, -⟩ := h.pipe quiet
  rw [State.ip, State.ip, pc, queue]

theorem Changes.jump (x : Word) : Changes { e with transfer := true } s (t.jump x) :=
  (h.trans (t.jump_changes x)).mono (by constructor <;> simp +contextual [Effect.andThen])

theorem Changes.farJump (x o : Word) : Changes { e with transfer := true, segs := e.segs ++ [.cs] } s (t.farJump x o) :=
  (h.trans (t.farJump_changes x o)).mono (by constructor <;> simp +contextual [Effect.andThen])

/-- A short jump after other changes goes from the IP before them when `b` says so, and is nothing otherwise
(45_control.md R386 to R405). -/
theorem Changes.jumpIf_law (quiet : e.transfer = false) (d : Byte) {b : Bool} {taken : Prop} (hb : b = true ↔ taken) :
    (taken → LandsAt (t.jumpIf b d) (BitVec.ofInt 16 (s.ip.toNat + d.toInt)) ∧
      Changes { e with transfer := true } s (t.jumpIf b d)) ∧
    (¬taken → t.jumpIf b d = t) := by
  rw [← hb, ofInt_toNat_add, ← h.ip quiet]
  constructor
  · rintro rfl
    exact ⟨t.jump_landsAt _, h.jump _⟩
  · exact fun off => if_neg off

end

theorem State.seg_farJump_cs (s : State) (x o : Word) : (s.farJump x o).seg .cs = x := s.seg_farJump x o .cs

@[simp] theorem State.reg16_jumpIf (s : State) (b : Bool) (d : Byte) (r : Reg16) :
    (s.jumpIf b d).reg16 r = s.reg16 r := by
  cases b
  · rfl
  · exact s.reg16_jump _ r

/-! ## Conditions -/

/-- Each conditional jump tests its condition (45_control.md R385). -/
theorem exec_jcc {i : Instr} {cond : Bool → Bool → Bool → Bool → Bool → Prop} {d : Byte} (h : asJcc i = some (cond, d))
    (s : State) : ∃ c, exec i s = .next (s.jumpIf (s.cond c) d) ∧
      (s.cond c = true ↔ cond (s.flag .cf) (s.flag .pf) (s.flag .zf) (s.flag .sf) (s.flag .ofl)) := by
  cases i with
  | joJb | jnoJb | jbJb | jaeJb | jeJb | jneJb | jbeJb | jaJb | jsJb | jnsJb | jpJb | jnpJb | jlJb | jgeJb | jleJb | jgJb =>
    cases h
    exact ⟨_, rfl, by simp [State.cond]⟩
  | _ => cases h

/-- CX is lowered, and the jump is taken when `b` says so (45_control.md R402 to R404). -/
theorem State.loop_law (s : State) (d : Byte) {b : Bool} {taken : Prop} (hb : b = true ↔ taken) :
    (s.decCx.jumpIf b d).reg16 .cx = BitVec.ofInt 16 ((s.reg16 .cx).toNat - 1) ∧
    (taken → LandsAt (s.decCx.jumpIf b d) (BitVec.ofInt 16 (s.ip.toNat + d.toInt)) ∧
      Changes { regs := [.cx], transfer := true } s (s.decCx.jumpIf b d)) ∧
    (¬taken → Changes { regs := [.cx] } s (s.decCx.jumpIf b d)) := by
  have lowered : Changes { regs := [.cx] } s s.decCx := s.setReg16_changes .cx _
  obtain ⟨jumps, stays⟩ := lowered.jumpIf_law rfl d hb
  refine ⟨?_, jumps, fun off => (stays off).symm ▸ lowered⟩
  rw [State.reg16_jumpIf, State.decCx, State.reg16_setReg16_self, sub_eq_add_neg, sub_eq_add_neg, ofInt_toNat_add]
  rfl

theorem State.decCx_ne_zero_iff (s : State) : s.decCx.reg16 .cx ≠ 0 ↔ s.reg16 .cx ≠ 1 := by
  rw [State.decCx, State.reg16_setReg16_self]
  exact sub_ne_zero

/-! ## Calls -/

/-- A near call has pushed the offset after the instruction (45_control.md R376, R377). -/
def NearCall (s t : State) : Prop :=
  t.reg16 .sp = s.reg16 .sp - 2 ∧ t.wordAt (s.seg .ss) (s.reg16 .sp - 2) = s.ip ∧
  Changes { regs := [.sp], stores := [phys (s.seg .ss) (s.reg16 .sp - 2), phys (s.seg .ss) (s.reg16 .sp - 1)]
            last := some (phys (s.seg .ss) (s.reg16 .sp - 1)), transfer := true } s t

/-- A far call has pushed CS and then the offset after the instruction (45_control.md R378, R379). -/
def FarCall (s t : State) : Prop :=
  t.reg16 .sp = s.reg16 .sp - 4 ∧ t.wordAt (s.seg .ss) (s.reg16 .sp - 2) = s.seg .cs ∧
  t.wordAt (s.seg .ss) (s.reg16 .sp - 4) = s.ip ∧
  Changes { regs := [.sp], segs := [.cs]
            stores := [phys (s.seg .ss) (s.reg16 .sp - 4), phys (s.seg .ss) (s.reg16 .sp - 3),
              phys (s.seg .ss) (s.reg16 .sp - 2), phys (s.seg .ss) (s.reg16 .sp - 1)]
            last := some (phys (s.seg .ss) (s.reg16 .sp - 3)), transfer := true } s t

section
variable (s : State)

theorem State.callNear_nearCall (x : Word) (hw : Memory.wf s.mem = true) : NearCall s (s.callNear x) :=
  ⟨by rw [State.callNear, State.reg16_jump, State.reg16_push16, if_pos rfl], s.wordAt_push16 _ hw,
    (s.push16_changes _ hw).jump x⟩

/-- Two pushes: the words lie below each other. -/
theorem State.push16_push16_law (v w : Word) (hw : Memory.wf s.mem = true) :
    ((s.push16 v).push16 w).reg16 .sp = s.reg16 .sp - 4 ∧
    ((s.push16 v).push16 w).wordAt (s.seg .ss) (s.reg16 .sp - 2) = v ∧
    ((s.push16 v).push16 w).wordAt (s.seg .ss) (s.reg16 .sp - 4) = w ∧
    Changes { regs := [.sp]
              stores := [phys (s.seg .ss) (s.reg16 .sp - 4), phys (s.seg .ss) (s.reg16 .sp - 3),
                phys (s.seg .ss) (s.reg16 .sp - 2), phys (s.seg .ss) (s.reg16 .sp - 1)]
              last := some (phys (s.seg .ss) (s.reg16 .sp - 3)) } s ((s.push16 v).push16 w) := by
  have wf := s.push16_wf v hw
  have sp : (s.push16 v).reg16 .sp = s.reg16 .sp - 2 := by rw [State.reg16_push16, if_pos rfl]
  have third : s.reg16 .sp - 2 - 1 = s.reg16 .sp - 3 := by bv_omega
  have fourth : s.reg16 .sp - 2 - 2 = s.reg16 .sp - 4 := by bv_omega
  have upper := (s.push16 v).wordAt_push16_ne w (s.reg16 .sp - 2) wf
  have lower := (s.push16 v).wordAt_push16 w wf
  have changes := (s.push16_changes v hw).trans (State.push16_changes _ w wf)
  rw [s.seg_push16, sp, third, fourth] at upper changes
  rw [s.seg_push16, sp, fourth] at lower
  refine ⟨by rw [State.reg16_push16, if_pos rfl, sp, fourth], ?_, lower,
    changes.mono (by constructor <;> simp [Effect.andThen])⟩
  exact (upper (by bv_omega) (by bv_omega) (by bv_omega) (by bv_omega)).trans (s.wordAt_push16 v hw)

theorem State.callFar_farCall (x o : Word) (hw : Memory.wf s.mem = true) : FarCall s (s.callFar x o) := by
  obtain ⟨sp, upper, lower, changes⟩ := s.push16_push16_law (s.seg .cs) s.ip hw
  rw [← s.ip_push16 (s.seg .cs)] at sp upper lower changes
  exact ⟨sp, upper, lower.trans (s.ip_push16 _), changes.farJump x o⟩

end

section
variable {s s' t : State} {last : Option Phys} (read : Changes { last := last } s s')
include read

/-- The operand is read before anything is pushed (45_control.md R377). -/
theorem NearCall.afterRead (call : NearCall s' t) : NearCall s t := by
  rw [NearCall, read.read_reg16, read.segs .ss List.not_mem_nil, read.ip rfl] at call
  obtain ⟨sp, pushed, changes⟩ := call
  exact ⟨sp, pushed, (read.trans changes).mono (by constructor <;> simp [Effect.andThen])⟩

/-- The pointer is read before anything is pushed (45_control.md R379). -/
theorem FarCall.afterRead (call : FarCall s' t) : FarCall s t := by
  rw [FarCall, read.read_reg16, read.segs .ss List.not_mem_nil, read.segs .cs List.not_mem_nil, read.ip rfl] at call
  obtain ⟨sp, cs, pushed, changes⟩ := call
  exact ⟨sp, cs, pushed, (read.trans changes).mono (by constructor <;> simp [Effect.andThen])⟩

end

/-! ## Returns -/

section
variable (s : State)

theorem State.sp_pop16 : s.pop16.2.reg16 .sp = s.reg16 .sp + 2 := by rw [State.reg16_pop16, if_pos rfl]

/-- Two pops: the words lie above each other. -/
theorem State.pop16_pop16_law :
    s.pop16.2.pop16.1 = s.wordAt (s.seg .ss) (s.reg16 .sp + 2) ∧ s.pop16.2.pop16.2.reg16 .sp = s.reg16 .sp + 4 ∧
    Changes { regs := [.sp], last := some (phys (s.seg .ss) (s.reg16 .sp + 3)) } s s.pop16.2.pop16.2 := by
  have changes := s.pop16_changes.trans s.pop16.2.pop16_changes
  have third : s.reg16 .sp + 2 + 1 = s.reg16 .sp + 3 := BitVec.add_assoc ..
  have fourth : s.reg16 .sp + 2 + 2 = s.reg16 .sp + 4 := BitVec.add_assoc ..
  rw [s.seg_pop16, s.sp_pop16, third] at changes
  refine ⟨?_, by rw [State.sp_pop16, State.sp_pop16, fourth], changes.mono (by constructor <;> simp [Effect.andThen])⟩
  rw [State.pop16_value, s.seg_pop16, s.sp_pop16, State.wordAt_congr s s.pop16_mem]

/-- Three pops, as IRET makes them. -/
theorem State.pop16_pop16_pop16_law :
    s.pop16.2.pop16.2.pop16.1 = s.wordAt (s.seg .ss) (s.reg16 .sp + 4) ∧
    s.pop16.2.pop16.2.pop16.2.reg16 .sp = s.reg16 .sp + 6 ∧
    Changes { regs := [.sp], last := some (phys (s.seg .ss) (s.reg16 .sp + 5)) } s s.pop16.2.pop16.2.pop16.2 := by
  obtain ⟨value, sp, changes⟩ := s.pop16.2.pop16_pop16_law
  have plus (j k : Word) : s.reg16 .sp + j + k = s.reg16 .sp + (j + k) := BitVec.add_assoc ..
  rw [s.seg_pop16, s.sp_pop16, plus] at value changes
  rw [s.sp_pop16, plus] at sp
  exact ⟨value.trans (State.wordAt_congr s s.pop16_mem _ _), sp,
    (s.pop16_changes.trans changes).mono (by constructor <;> simp [Effect.andThen])⟩

theorem State.setReg16_add_zero (r : Reg16) : s.setReg16 r (s.reg16 r + 0) = s :=
  (congrArg _ (BitVec.add_zero _)).trans (by cases r <;> rfl)

/-- RET is the near return that releases nothing (45_control.md R380). -/
theorem exec_ret : exec .ret s = .next (s.returnNear 0) := by
  rw [State.returnNear, State.setReg16_add_zero]
  rfl

/-- RETF is the far return that releases nothing (45_control.md R382). -/
theorem exec_retf : exec .retf s = .next (s.returnFar 0) := by
  rw [State.returnFar, State.setReg16_add_zero]
  rfl

/-- A near return goes to the word at SS:SP (45_control.md R380, R381). -/
theorem State.returnNear_law (k : Word) :
    LandsAt (s.returnNear k) (s.wordAt (s.seg .ss) (s.reg16 .sp)) ∧
    (s.returnNear k).reg16 .sp = s.reg16 .sp + 2 + k ∧
    Changes { regs := [.sp], last := some (phys (s.seg .ss) (s.reg16 .sp + 1)), transfer := true } s (s.returnNear k) := by
  have popped := s.pop16_changes.trans (State.setReg16_changes _ .sp (s.pop16.2.reg16 .sp + k))
  refine ⟨State.jump_landsAt _ _, ?_, (popped.jump s.pop16.1).mono (by constructor <;> simp [Effect.andThen])⟩
  rw [State.returnNear, State.reg16_jump, State.reg16_setReg16_self, s.sp_pop16]

/-- A far return goes to the pointer at SS:SP (45_control.md R382, R383). -/
theorem State.returnFar_law (k : Word) :
    LandsAt (s.returnFar k) (s.wordAt (s.seg .ss) (s.reg16 .sp)) ∧
    (s.returnFar k).seg .cs = s.wordAt (s.seg .ss) (s.reg16 .sp + 2) ∧
    (s.returnFar k).reg16 .sp = s.reg16 .sp + 4 + k ∧
    Changes { regs := [.sp], segs := [.cs], last := some (phys (s.seg .ss) (s.reg16 .sp + 3)), transfer := true } s
      (s.returnFar k) := by
  obtain ⟨cs, sp, changes⟩ := s.pop16_pop16_law
  have popped := changes.trans (State.setReg16_changes _ .sp (s.pop16.2.pop16.2.reg16 .sp + k))
  refine ⟨State.farJump_landsAt _ _ _, (State.seg_farJump_cs _ _ _).trans cs, ?_,
    (popped.farJump s.pop16.2.pop16.1 s.pop16.1).mono (by constructor <;> simp [Effect.andThen])⟩
  rw [State.returnFar, State.reg16_farJump, State.reg16_setReg16_self, sp]

/-! ## Interrupts -/

theorem exec_into : exec .into s = .next (if s.flag .ofl then s.raise 4 else s) := rfl

/-- The return from an interrupt goes to the pointer at SS:SP, and FLAGS are the word above it (45_control.md R409). -/
theorem State.interruptReturn_law :
    LandsAt s.interruptReturn (s.wordAt (s.seg .ss) (s.reg16 .sp)) ∧
    s.interruptReturn.seg .cs = s.wordAt (s.seg .ss) (s.reg16 .sp + 2) ∧
    s.interruptReturn.flags = fixFlags (s.wordAt (s.seg .ss) (s.reg16 .sp + 4)) ∧
    s.interruptReturn.reg16 .sp = s.reg16 .sp + 6 ∧
    Changes { regs := [.sp], segs := [.cs], allFlags := true, last := some (phys (s.seg .ss) (s.reg16 .sp + 5))
              transfer := true } s s.interruptReturn := by
  obtain ⟨cs, -, -⟩ := s.pop16_pop16_law
  obtain ⟨flags, sp, changes⟩ := s.pop16_pop16_pop16_law
  have popped := changes.trans (State.writeFlags_changes _ s.pop16.2.pop16.2.pop16.1)
  exact ⟨State.farJump_landsAt _ _ _, (State.seg_farJump_cs _ _ _).trans cs, congrArg fixFlags flags, sp,
    (popped.farJump s.pop16.2.pop16.1 s.pop16.1).mono (by constructor <;> simp [Effect.andThen])⟩

end

/-- A write of FLAGS stores a word whose reserved bits hold their values as it is (10_state.md R29). -/
theorem fixFlags_of_flagsFixed {w : Word} (h : flagsFixed w) : fixFlags w = w := by
  calc fixFlags w = (w &&& 0x0FD5) ||| (w &&& 0xF02A) := congrArg ((w &&& 0x0FD5) ||| ·) h.symm
    _ = w &&& 0xFFFF := BitVec.and_or_distrib_left.symm
    _ = w := BitVec.and_allOnes

end Sys2Proof.Machine
end

section
/-! The statements of control transfer (45_control.md R370 to R409; 60_exceptions.md R520, R521). -/

namespace Sys2Proof.Machine

/-- Settles O41: each form reads its target, if it lies in memory, and is `State.jump` or `State.farJump` after that. -/
theorem jumps : Obligations.Jumps := by
  intro s
  refine ⟨fun d => ?short, fun d => ?near,
    fun e => ⟨_, rfl, s.readRm16_value e ▸ State.jump_landsAt _ _, (s.readRm16_changes e).jump _⟩,
    fun o x => ⟨_, rfl, s.farJump_landsAt x o, s.seg_farJump_cs x o, s.farJump_changes x o⟩,
    fun m => ⟨_, rfl, State.farJump_landsAt _ _ _, State.seg_farJump_cs _ _ _, (s.readFar_changes m).farJump _ _⟩⟩
  case short => exact ⟨_, rfl, ((Changes.refl s).jumpIf_law rfl d (b := true) Iff.rfl).1 rfl⟩
  case near =>
    rw [ofInt_toNat_add, BitVec.ofInt_toInt]
    exact ⟨_, rfl, s.jump_landsAt _, s.jump_changes _⟩

/-- Settles O42: each form reads its target, if it lies in memory, and is `State.callNear` or `State.callFar` after that. -/
theorem calls : Obligations.Calls := by
  intro s hw ss sp near distant
  refine ⟨fun d => ⟨_, rfl, State.jump_landsAt _ _, s.callNear_nearCall _ hw⟩, fun e => ?indirect,
    fun o x => ⟨_, rfl, State.farJump_landsAt _ _ _, State.seg_farJump_cs _ _ _, s.callFar_farCall x o hw⟩, fun m => ?far⟩
  case indirect =>
    have wf : Memory.wf (s.readRm16 e).2.mem = true := by rwa [State.readRm16, State.readLoc16_mem]
    exact ⟨_, rfl, s.readRm16_value e ▸ State.jump_landsAt _ _,
      (State.callNear_nearCall _ _ wf).afterRead (s.readRm16_changes e)⟩
  case far =>
    have wf : Memory.wf (s.readFar m).2.mem = true := hw
    exact ⟨_, rfl, State.farJump_landsAt _ _ _, State.seg_farJump_cs _ _ _,
      (State.callFar_farCall _ _ _ wf).afterRead (s.readFar_changes m)⟩

/-- Settles O43: RET and RETF release nothing, the other two their immediate. -/
theorem returns : Obligations.Returns := fun s k =>
  ⟨⟨_, exec_ret s, s.returnNear_law 0⟩, ⟨_, rfl, s.returnNear_law k⟩,
    ⟨_, exec_retf s, s.returnFar_law 0⟩, _, rfl, s.returnFar_law k⟩

/-- Settles O44: each form is a short jump under its condition. -/
theorem conditionalJumps : Obligations.ConditionalJumps := by
  intro i cond d s h
  obtain ⟨c, run, holds⟩ := exec_jcc h s
  obtain ⟨jumps, stays⟩ := (Changes.refl s).jumpIf_law rfl d holds
  exact ⟨fun taken => ⟨_, run, jumps taken⟩, fun off => run.trans (congrArg _ (stays off))⟩

/-- Settles O46: the loops lower CX, and JCXZ does not; each is a short jump under its condition after that. -/
theorem loops : Obligations.Loops := by
  intro s d goes cx ends
  obtain ⟨jumps, stays⟩ := (Changes.refl s).jumpIf_law rfl d (decide_eq_true_iff (p := s.reg16 .cx = 0))
  refine ⟨⟨_, rfl, s.loop_law d ?loop⟩, ⟨_, rfl, s.loop_law d ?loope⟩, ⟨_, rfl, s.loop_law d ?loopne⟩,
    fun zero => ⟨_, rfl, jumps zero⟩, fun positive => congrArg _ (stays positive)⟩
  case loop => rw [decide_eq_true_iff, s.decCx_ne_zero_iff]
  case loope => rw [Bool.and_eq_true, decide_eq_true_iff, s.decCx_ne_zero_iff]
  case loopne => rw [Bool.and_eq_true, decide_eq_true_iff, s.decCx_ne_zero_iff, Bool.not_eq_true']

/-- Settles O47: each form raises its interrupt, INTO when OF is set. -/
theorem softwareInterrupts : Obligations.SoftwareInterrupts := by
  intro s hw enters
  have raised {i : Instr} {n : Byte} (run : exec i s = .next (s.raise n)) : enters i n := by
    obtain ⟨entered, changes⟩ := s.raise_law n hw
    exact ⟨_, run, entered, State.ctx_interrupt _ n, changes⟩
  refine ⟨fun _ => raised rfl, raised rfl, fun overflow => raised ?_, fun clear => ?_⟩
  · rw [exec_into, if_pos overflow]
  · rw [exec_into, if_neg (Bool.eq_false_iff.1 clear)]

/-- Settles O48: IRET is `State.interruptReturn`. -/
theorem interruptReturn : Obligations.InterruptReturn := fun s => ⟨_, rfl, s.interruptReturn_law⟩

/-- Settles O49: the frame that the entry pushes is the frame that IRET pops, and neither changes anything else of what is
claimed. -/
theorem interruptRoundTrip : Obligations.InterruptRoundTrip := by
  intro s n hw fixed
  obtain ⟨⟨sp, flags, cs, ip, -⟩, entry⟩ := s.raise_law n hw
  obtain ⟨landed, cs', flags', sp', exit⟩ := (s.raise n).interruptReturn_law
  have ss : (s.raise n).seg .ss = s.seg .ss := entry.segs .ss (mt List.mem_singleton.1 nofun)
  have middle : s.reg16 .sp - 6 + 2 = s.reg16 .sp - 4 := by bv_omega
  have top : s.reg16 .sp - 6 + 4 = s.reg16 .sp - 2 := by bv_omega
  rw [ss, sp, ip] at landed
  rw [ss, sp, middle, cs] at cs'
  rw [ss, sp, top, flags, fixFlags_of_flagsFixed fixed] at flags'
  rw [sp, BitVec.sub_add_cancel] at sp'
  refine ⟨_, _, rfl, rfl, flags', landed, fun r => ?registers, fun g => ?segments,
    fun a outside => (exit.mem a List.not_mem_nil).trans (entry.mem a outside)⟩
  case registers =>
    by_cases hr : r = .sp
    · rw [hr, sp']
    · have other : r ∉ [Reg16.sp] := mt List.mem_singleton.1 hr
      exact (exit.regs r other nofun).trans (entry.regs r other nofun)
  case segments =>
    by_cases hg : g = .cs
    · rw [hg, cs']
    · have other : g ∉ [Seg.cs] := mt List.mem_singleton.1 hg
      exact (exit.segs g other).trans (entry.segs g other)

end Sys2Proof.Machine
end

section
/-! Processor control: one flag, FLAGS as a word and the halt written, and FLAGS as SAHF leaves it
(46_processor_control.md R430 to R437; 41_data_transfer.md R226; 10_state.md R29). -/

namespace Sys2Proof.Machine

/-! ## One write -/

theorem State.setFlag_law (s : State) (f : Flag) (b : Bool) :
    (s.setFlag f b).flag f = b ∧ Changes { flags := [f] } s (s.setFlag f b) :=
  ⟨s.flag_setFlag_self f b, s.setFlag_changes f b⟩

/-- A word written to FLAGS changes the flags listed when it agrees with FLAGS at all other bits. -/
theorem State.setFlags_changes (s : State) {w : Word} {l : List Flag}
    (agrees : ∀ k, (∀ f ∈ l, f.bit ≠ k) → w.getLsbD k = s.flags.getLsbD k) :
    Changes { flags := l } s { s with flags := w } :=
  { Changes.refl s with flags := fun _ => agrees }

theorem State.setHalted_changes (s : State) (b : Bool) : Changes { halted := true } s { s with halted := b } :=
  { Changes.refl s with halted := nofun }

/-! ## SAHF -/

/-- FLAGS after SAHF (41_data_transfer.md R226). -/
def sahfFlags (w : Word) (a : Byte) : Word := (w &&& 0xFF00) ||| zext16 (a &&& 0xD5) ||| 0x0002

theorem exec_sahf (s : State) : exec .sahf s = .next { s with flags := sahfFlags s.flags (s.reg8 .ah) } := rfl

/-- Where the reserved bits hold their values, SAHF takes the bits of the mask D5 from AH and keeps all others. -/
theorem sahfFlags_eq_of_flagsFixed {w : Word} (fixed : flagsFixed w) (a : Byte) :
    sahfFlags w a = (w &&& ~~~0x00D5) ||| (zext16 a &&& 0x00D5) := by
  have reserved : w &&& 0x002A = 0x0002 := by
    calc w &&& 0x002A = (w &&& 0xF02A) &&& 0x002A := (BitVec.and_assoc w 0xF02A 0x002A).symm
      _ = 0x0002 := by rw [show w &&& 0xF02A = 0xF002 from fixed]; rfl
  have kept : w &&& ~~~0x00D5 = (w &&& 0xFF00) ||| 0x0002 := by
    calc w &&& ~~~0x00D5 = (w &&& 0xFF00) ||| (w &&& 0x002A) := BitVec.and_or_distrib_left (y := 0xFF00) (z := 0x002A)
      _ = (w &&& 0xFF00) ||| 0x0002 := by rw [reserved]
  have taken : zext16 (a &&& 0xD5) = zext16 a &&& 0x00D5 := BitVec.setWidth_and
  rw [sahfFlags, kept, taken, BitVec.or_assoc, BitVec.or_assoc, BitVec.or_comm 0x0002]

theorem sahfFlags_getLsbD {w : Word} (fixed : flagsFixed w) (a : Byte) (k : Nat) :
    (sahfFlags w a).getLsbD k = if (0x00D5 : Word).getLsbD k then a.getLsbD k else w.getLsbD k := by
  rw [sahfFlags_eq_of_flagsFixed fixed, BitVec.getLsbD_or, BitVec.getLsbD_and, BitVec.getLsbD_and, BitVec.getLsbD_not,
    zext16, BitVec.getLsbD_setWidth]
  by_cases inWord : k < 16
  · cases (0x00D5 : Word).getLsbD k <;> simp [inWord]
  · simp [inWord, BitVec.getLsbD_of_ge _ k (not_lt.1 inWord)]

/-- The flags that SAHF writes. -/
def sahfWritten : List Flag := [.sf, .zf, .af, .pf, .cf]

/-- The mask D5 holds the bits of these flags and no other. -/
theorem mask_getLsbD_iff_written (k : Nat) : (0x00D5 : Word).getLsbD k = true ↔ ∃ f ∈ sahfWritten, f.bit = k := by
  constructor
  · intro taken
    have flags : ∀ j < 16, (0x00D5 : Word).getLsbD j = true → ∃ f ∈ sahfWritten, f.bit = j := by decide
    exact flags k (BitVec.lt_of_getLsbD taken) taken
  · rintro ⟨f, written, rfl⟩
    revert f; decide

section
variable {w : Word} (fixed : flagsFixed w) (a : Byte)
include fixed

theorem sahfFlags_getLsbD_written {f : Flag} (written : f ∈ sahfWritten) :
    (sahfFlags w a).getLsbD f.bit = a.getLsbD f.bit := by
  rw [sahfFlags_getLsbD fixed, if_pos ((mask_getLsbD_iff_written _).2 ⟨f, written, rfl⟩)]

theorem sahfFlags_getLsbD_other {k : Nat} (other : ∀ f ∈ sahfWritten, f.bit ≠ k) :
    (sahfFlags w a).getLsbD k = w.getLsbD k := by
  rw [sahfFlags_getLsbD fixed, if_neg]
  intro taken
  obtain ⟨f, written, bit⟩ := (mask_getLsbD_iff_written k).1 taken
  exact other f written bit

end

/-! ## WAIT -/

theorem exec_wait (s : State) : exec .wait s = .next (if s.test then s else s.jump s.ctx.ipStart) := rfl

end Sys2Proof.Machine
end

section
/-! The statements of processor control (46_processor_control.md R430 to R440; 41_data_transfer.md R225, R226). -/

namespace Sys2Proof.Machine

/-- Settles O50: the flag instructions are `State.setFlag`, LAHF is `State.setReg8`, and SAHF writes `sahfFlags`. -/
theorem flagInstructions : Obligations.FlagInstructions := by
  intro s sets
  have oneFlag {i : Instr} {f : Flag} {b : Bool} (run : exec i s = .next (s.setFlag f b)) : sets i f b :=
    ⟨_, run, s.setFlag_law f b⟩
  refine ⟨oneFlag rfl, oneFlag rfl, oneFlag rfl, oneFlag rfl, oneFlag rfl, oneFlag rfl, ⟨_, rfl, ?sti⟩, ⟨_, rfl, ?lahf⟩,
    fun fixed => ⟨_, exec_sahf s, ?sahf⟩⟩
  case sti =>
    obtain ⟨set, changes⟩ := s.setFlag_law .ifl true
    refine ⟨set, fun shadow => ?_, fun noShadow => ?_, { changes with inhibit := nofun }⟩
    · exact (congrArg (s.inhibit || ·) shadow).trans (Bool.or_true _)
    · exact (congrArg (s.inhibit || ·) noShadow).trans (Bool.or_false _)
  case lahf =>
    exact ⟨(s.reg8_setReg8_self .ah _).trans (lo8_eq_setWidth _), s.setReg8_changes .ah _⟩
  case sahf =>
    have written {f : Flag} (h : f ∈ sahfWritten) := sahfFlags_getLsbD_written fixed (s.reg8 .ah) h
    exact ⟨written (f := .sf) (by decide), written (f := .zf) (by decide), written (f := .af) (by decide),
      written (f := .pf) (by decide), written (f := .cf) (by decide),
      s.setFlags_changes fun _ => sahfFlags_getLsbD_other fixed _⟩

/-- Settles O51: WAIT is `State.jump` when TEST is not asserted, and ESC is `State.pa` of a memory operand. -/
theorem haltWaitEscape : Obligations.HaltWaitEscape := by
  intro s
  refine ⟨⟨_, rfl, rfl, s.setHalted_changes true⟩, fun asserted => ?ready,
    fun waiting => ⟨_, ?waits, s.jump_landsAt _, s.jump_changes _⟩,
    fun _ _ _ => rfl, fun _ _ m => ⟨_, rfl, s.pa_changes (s.memSeg m) (s.ea m)⟩⟩
  case ready => rw [exec_wait, if_pos asserted]
  case waits => rw [exec_wait, if_neg (Bool.eq_false_iff.1 waiting)]

end Sys2Proof.Machine
end

section
/-! The owner of a port among the devices, and what a byte or a word read from a port or written to it leaves (47_io.md R451
to R454, R457 to R460). -/

namespace Sys2Proof.Machine

/-! ## The owner of a port -/

theorem Device.owns_iff {d : Device} {p : Word} : d.owns p = true ↔ p ∈ d.ports := List.contains_iff_mem

section
variable {p : Word} {ds l : List Device}

theorem owner_eq_none (free : ∀ d ∈ ds, p ∉ d.ports) : owner ds p = none :=
  List.find?_eq_none.2 fun d hd => mt Device.owns_iff.1 (free d hd)

theorem owner_append_cons (free : ∀ e ∈ l, p ∉ e.ports) {d : Device} (owned : p ∈ d.ports) (r : List Device) :
    owner (l ++ d :: r) p = some d := by
  have before : l.find? (·.owns p) = none := owner_eq_none free
  rw [owner, List.find?_append, before, Option.none_or]
  exact List.find?_cons_of_pos (Device.owns_iff.2 owned)

/-- The devices that stand before the owner of a port are left as they are. -/
theorem onOwner_append (free : ∀ e ∈ l, p ∉ e.ports) (g : Device → Device) (r : List Device) :
    onOwner p g (l ++ r) = l ++ onOwner p g r := by
  induction l with
  | nil => rfl
  | cons e l ih =>
    rw [List.forall_mem_cons] at free
    rw [List.cons_append, onOwner, if_neg (mt Device.owns_iff.1 free.1), ih free.2, List.cons_append]

theorem onOwner_eq_self (free : ∀ d ∈ ds, p ∉ d.ports) (g : Device → Device) : onOwner p g ds = ds := by
  simpa [onOwner] using onOwner_append free g []

theorem onOwner_append_cons (free : ∀ e ∈ l, p ∉ e.ports) {d : Device} (owned : p ∈ d.ports) (g : Device → Device)
    (r : List Device) : onOwner p g (l ++ d :: r) = l ++ g d :: r := by
  rw [onOwner_append free, onOwner, if_pos (Device.owns_iff.2 owned)]

end

/-! ## One byte -/

/-- What the owner of a port drives when the port is read (47_io.md R452). -/
def State.driven (s : State) (p : Word) : Option Byte := (owner s.devices p).bind fun d => (d.readByte p).1

/-- The draws that a read of a port makes: one where nothing drives it (47_io.md R452). -/
def State.readDraws (s : State) (p : Word) : Nat := (s.driven p).elim 1 fun _ => 0

section
variable (s : State) (p : Word)

theorem State.ioReadByte_eq : s.ioReadByte p =
    ((s.driven p).getD ((Config.freeWord s.draws).setWidth 8),
      { s with devices := onOwner p (fun d => (d.readByte p).2) s.devices, draws := s.draws + s.readDraws p }) := by
  rw [State.ioReadByte, State.readDraws, State.driven]
  cases (owner s.devices p).bind fun d => (d.readByte p).1 with
  | some b => rfl
  | none => exact congrArg (·, _) (lo8_eq_setWidth _)

/-- The devices and the count of draws take new values. -/
theorem State.setDevices_changes (ds : List Device) (k : Nat) :
    Changes { devices := true, draws := k } s { s with devices := ds, draws := s.draws + k } :=
  { Changes.refl s with devices := nofun, draws := rfl }

theorem State.ioReadByte_changes : Changes { devices := true, draws := s.readDraws p } s (s.ioReadByte p).2 := by
  rw [s.ioReadByte_eq]
  exact s.setDevices_changes _ _

theorem State.ioWriteByte_changes (b : Byte) : Changes { devices := true } s (s.ioWriteByte p b) :=
  s.setDevices_changes _ 0

theorem Changes.draws_sub {e : Effect} {s t : State} (h : Changes e s t) : t.draws - s.draws = e.draws := by
  rw [h.draws, Nat.add_sub_cancel_left]

/-! ## IN and OUT -/

/-- A byte read into AL (47_io.md R457, R458). -/
theorem State.inByte_law :
    (s.inByte p).reg8 .al = (s.ioReadByte p).1 ∧ (s.inByte p).devices = (s.ioReadByte p).2.devices ∧
    Changes { halves := [.al], devices := true, draws := (s.ioReadByte p).2.draws - s.draws } s (s.inByte p) := by
  have read := s.ioReadByte_changes p
  rw [read.draws_sub]
  exact ⟨State.reg8_setReg8_self _ .al _, State.setReg8_devices _ .al _,
    (read.trans (State.setReg8_changes _ .al _)).mono (by constructor <;> simp [Effect.andThen])⟩

/-- A word read into AX, the low byte first (47_io.md R454, R457, R458). -/
theorem State.inWord_law :
    (s.inWord p).reg8 .al = (s.ioReadByte p).1 ∧
    (s.inWord p).reg8 .ah = ((s.ioReadByte p).2.ioReadByte (p + 1)).1 ∧
    (s.inWord p).devices = ((s.ioReadByte p).2.ioReadByte (p + 1)).2.devices ∧
    Changes { regs := [.ax], devices := true,
              draws := ((s.ioReadByte p).2.ioReadByte (p + 1)).2.draws - s.draws } s (s.inWord p) := by
  have read := (s.ioReadByte_changes p).trans ((s.ioReadByte p).2.ioReadByte_changes (p + 1))
  rw [read.draws_sub]
  exact ⟨lo8_join16 _ _, hi8_join16 _ _, rfl,
    (read.trans (State.setReg16_changes _ .ax _)).mono (by constructor <;> simp [Effect.andThen])⟩

/-- AX written as a word: AL, and AH at the next port (47_io.md R454, R459, R460). -/
theorem State.ioWrite16_law :
    (s.ioWrite16 p (s.reg16 .ax)).devices =
      ((s.ioWriteByte p (s.reg8 .al)).ioWriteByte (p + 1) (s.reg8 .ah)).devices ∧
    Changes { devices := true } s (s.ioWrite16 p (s.reg16 .ax)) :=
  ⟨rfl, (s.ioWriteByte_changes p _).trans (State.ioWriteByte_changes _ (p + 1) _)⟩

end

end Sys2Proof.Machine
end

section
/-! The statements of the ports (47_io.md R450 to R460). -/

namespace Sys2Proof.Machine

/-- Settles O52: the forms are `State.inByte`, `State.inWord`, `State.ioWriteByte` and `State.ioWrite16`, each at the port in
the instruction or in DX. -/
theorem portInstructions : Obligations.PortInstructions := by
  intro s readsByte readsWord writesByte writesWord
  have inByte {i : Instr} {p : Word} (run : exec i s = .next (s.inByte p)) : readsByte i p :=
    ⟨_, run, s.inByte_law p⟩
  have inWord {i : Instr} {p : Word} (run : exec i s = .next (s.inWord p)) : readsWord i p :=
    ⟨_, run, s.inWord_law p⟩
  have outByte {i : Instr} {p : Word} (run : exec i s = .next (s.ioWriteByte p (s.reg8 .al))) : writesByte i p :=
    ⟨_, run, rfl, s.ioWriteByte_changes p _⟩
  have outWord {i : Instr} {p : Word} (run : exec i s = .next (s.ioWrite16 p (s.reg16 .ax))) : writesWord i p :=
    ⟨_, run, s.ioWrite16_law p⟩
  exact ⟨fun n => ⟨inByte rfl, inWord rfl, outByte rfl, outWord rfl⟩, inByte rfl, inWord rfl, outByte rfl, outWord rfl⟩

/-- Settles O53: a port that no device owns is driven by nothing, and an owned one by its owner, which alone the access
replaces. -/
theorem portDispatch : Obligations.PortDispatch := by
  intro s p b
  refine ⟨fun free => ?unowned, fun l r d devices free owned => ?owned⟩
  case unowned =>
    have silent : s.driven p = none := by rw [State.driven, owner_eq_none free, Option.bind_none]
    rw [s.ioReadByte_eq, State.readDraws, silent, State.ioWriteByte, onOwner_eq_self free, onOwner_eq_self free]
    exact ⟨rfl, rfl, rfl⟩
  case owned =>
    have drives : s.driven p = (d.readByte p).1 := by
      rw [State.driven, devices, owner_append_cons free owned, Option.bind_some]
    rw [s.ioReadByte_eq, State.readDraws, drives, State.ioWriteByte, devices, onOwner_append_cons free owned,
      onOwner_append_cons free owned]
    refine ⟨rfl, rfl, fun v answered => ?_, fun silent => ?_, rfl, rfl⟩
    · rw [answered]; exact ⟨rfl, rfl⟩
    · rw [silent]; exact ⟨rfl, rfl⟩

end Sys2Proof.Machine
end

section
/-! The instruction boundary: which event it takes, and that taking it is the entry of its interrupt (60_exceptions.md R511,
R512, R514, R520, R530, R531). -/

namespace Sys2Proof.Machine

/-! ## What is pending -/

section
variable {s : State}

theorem State.externalPending_eq_false_iff :
    s.externalPending = false ↔ s.nmiLatched = false ∧ (s.intr = false ∨ s.flag .ifl = false) := by
  simp only [State.externalPending, Bool.or_eq_false_iff, Bool.and_eq_false_iff]

theorem State.externalPending_of_nmi (nmi : s.nmiLatched = true) : s.externalPending = true := by
  rw [State.externalPending, nmi, Bool.true_or]

theorem State.externalPending_of_intr (intr : s.intr = true) (enabled : s.flag .ifl = true) :
    s.externalPending = true := by
  rw [State.externalPending, intr, enabled, Bool.and_self, Bool.or_true]

theorem State.trapDue_iff :
    s.trapDue = true ↔ s.ctx.tfStart = true ∧ (s.ctx.entered = false ∨ Config.trapAfterSoftwareInt = true) := by
  simp only [State.trapDue, Bool.and_eq_true, Bool.or_eq_true, Bool.not_eq_true']

theorem State.trapDue_eq_false_iff :
    s.trapDue = false ↔ s.ctx.tfStart = false ∨ (s.ctx.entered = true ∧ Config.trapAfterSoftwareInt = false) := by
  simp only [State.trapDue, Bool.and_eq_false_iff, Bool.or_eq_false_iff, Bool.not_eq_false']

/-! ## The boundary, event by event -/

theorem State.boundary_inhibited (inhibited : s.inhibit = true) : s.boundary = { s with inhibit := false } := by
  rw [State.boundary, if_pos inhibited]

section
variable (allowed : s.inhibit = false)
include allowed

theorem State.boundary_external (pending : s.externalPending = true) : s.boundary = s.acceptExternal := by
  rw [State.boundary, if_neg (Bool.eq_false_iff.1 allowed), if_pos pending]

theorem State.boundary_nmi (nmi : s.nmiLatched = true) :
    s.boundary = ({ s with nmiLatched := false } : State).interrupt 2 := by
  rw [State.boundary_external allowed (State.externalPending_of_nmi nmi), State.acceptExternal, if_pos nmi]

theorem State.boundary_intr (noNmi : s.nmiLatched = false) (intr : s.intr = true) (enabled : s.flag .ifl = true) :
    s.boundary = s.interrupt s.intaVector := by
  rw [State.boundary_external allowed (State.externalPending_of_intr intr enabled), State.acceptExternal,
    if_neg (Bool.eq_false_iff.1 noNmi)]

section
variable (quiet : s.externalPending = false)
include quiet

theorem State.boundary_trap (due : s.trapDue = true) : s.boundary = s.interrupt 1 := by
  rw [State.boundary, if_neg (Bool.eq_false_iff.1 allowed), if_neg (Bool.eq_false_iff.1 quiet), if_pos due]

theorem State.boundary_none (notDue : s.trapDue = false) : s.boundary = s := by
  rw [State.boundary, if_neg (Bool.eq_false_iff.1 allowed), if_neg (Bool.eq_false_iff.1 quiet),
    if_neg (Bool.eq_false_iff.1 notDue)]

end

end

end

/-- Settles O11: each branch of `State.boundary` that takes an event is the entry of its interrupt. -/
theorem boundaryOrder : Obligations.BoundaryOrder := by
  refine fun s wf => ⟨State.boundary_inhibited, fun allowed nmi => ?nmi, fun allowed noNmi intr enabled => ?intr,
    fun allowed noNmi quiet started entered => ?trap, fun allowed noNmi quiet notDue => ?none⟩
  case nmi =>
    obtain ⟨entered, changes⟩ := ({ s with nmiLatched := false } : State).interrupt_law 2 wf
    rw [State.boundary_nmi allowed nmi]
    exact ⟨entered, changes.rest.1⟩
  case intr =>
    obtain ⟨entered, changes⟩ := s.interrupt_law s.intaVector wf
    obtain ⟨_, _, kept, _⟩ := changes.rest
    rw [State.boundary_intr allowed noNmi intr enabled]
    exact ⟨entered, kept.trans intr⟩
  case trap =>
    rw [State.boundary_trap allowed (State.externalPending_eq_false_iff.2 ⟨noNmi, quiet⟩)
      (State.trapDue_iff.2 ⟨started, entered⟩)]
    exact (s.interrupt_law 1 wf).1
  case none =>
    exact State.boundary_none allowed (State.externalPending_eq_false_iff.2 ⟨noNmi, quiet⟩)
      (State.trapDue_eq_false_iff.2 notDue)

end Sys2Proof.Machine
end

section
/-! The floppy controller's registers, access by access, and its protocol from a command's opcode to its result
(60_exceptions.md R551 to R563). -/

namespace Sys2Proof.Machine

/-! ## The registers at their ports -/

section
variable (f : Fdc) (v : Byte)

theorem Fdc.readByte_dor : f.readByte 0x3F2 = (none, f) := rfl

theorem Fdc.readByte_msr : f.readByte 0x3F4 = (some (msr f.phase), f) := rfl

theorem Fdc.readByte_data : f.readByte 0x3F5 = f.readData := rfl

theorem Fdc.writeByte_dor : f.writeByte 0x3F2 v = f.writeDor v := rfl

theorem Fdc.writeByte_msr : f.writeByte 0x3F4 v = f := rfl

theorem Fdc.writeByte_data : f.writeByte 0x3F5 v = f.writeData v := rfl

end

/-! ## The DOR -/

section
variable {f : Fdc} {v : Byte}

theorem Fdc.writeDor_of_resetLevel (level : v.getLsbD 2 = Config.dorResetLevel) :
    f.writeDor v = { f.toNone with dor := v } := by
  rw [Fdc.writeDor, if_pos level]; rfl

theorem Fdc.writeDor_of_not_resetLevel (level : v.getLsbD 2 ≠ Config.dorResetLevel) :
    f.writeDor v = { f with dor := v } := by
  rw [Fdc.writeDor, if_neg level]

/-- Whether it resets or not, a DOR write stores its byte and keeps the log. -/
theorem Fdc.writeDor_dor_log (f : Fdc) (v : Byte) : (f.writeDor v).dor = v ∧ (f.writeDor v).log = f.log := by
  by_cases level : v.getLsbD 2 = Config.dorResetLevel
  · rw [Fdc.writeDor_of_resetLevel level]; exact ⟨rfl, rfl⟩
  · rw [Fdc.writeDor_of_not_resetLevel level]; exact ⟨rfl, rfl⟩

/-! ## Reads of the data register -/

theorem Fdc.readData_waiting (waiting : f.phase = .none ∨ f.phase = .command) : f.readData = (none, f) := by
  rcases waiting with phase | phase <;> rw [Fdc.readData, phase]

theorem Fdc.readData_execution (phase : f.phase = .execution) : f.readData = (none, f.execute) := by
  rw [Fdc.readData, phase]

theorem Fdc.readData_result_cons (phase : f.phase = .result) {b : Byte} {rest : List Byte} (bytes : f.result = b :: rest) :
    f.readData = (some b, { f with result := rest }) := by
  rw [Fdc.readData, phase, bytes]

theorem Fdc.readData_result_nil (phase : f.phase = .result) (read : f.result = []) : f.readData = (none, f) := by
  rw [Fdc.readData, phase, read]

/-! ## Writes of the data register -/

theorem Fdc.writeData_none (phase : f.phase = .none) : f.writeData v = f.select v := by
  rw [Fdc.writeData, phase]

theorem Fdc.writeData_command (phase : f.phase = .command) : f.writeData v = f.parameter v := by
  rw [Fdc.writeData, phase]

theorem Fdc.writeData_execution (phase : f.phase = .execution) : f.writeData v = f.execute := by
  rw [Fdc.writeData, phase]

theorem Fdc.writeData_result (phase : f.phase = .result) : f.writeData v = f.toNone.select v := by
  rw [Fdc.writeData, phase]

theorem Fdc.select_invalid (invalid : fdcCommand (v.toNat % 32) = none) : f.select v = { f with log := f.log ++ [v] } := by
  rw [Fdc.select, invalid]

end

/-! ## A command from its opcode to its result -/

/-- The controller with a command of the table selected: which parameters it has received, and how many are still to come
(60_exceptions.md R557). -/
def Fdc.selected (f : Fdc) (v : Byte) (cmd : FdcCommand) (remaining : Nat) (params : List Byte) : Fdc :=
  { f with
    active := some ⟨v, cmd, remaining, params⟩
    phase := if 0 < remaining then .command else .execution
    result := [] }

section
variable {f : Fdc} {v : Byte} {cmd : FdcCommand} {count : Nat} (valid : fdcCommand (v.toNat % 32) = some (cmd, count))
include valid

theorem Fdc.select_valid (empty : f.result = []) : f.select v = f.selected v cmd count [] := by
  rw [Fdc.select, valid, Fdc.selected, ← empty]

/-- In phase None there are no result bytes, and from Result the write discards them. -/
theorem Fdc.writeData_valid (inv : f.Inv) (ready : f.phase = .none ∨ f.phase = .result) :
    f.writeData v = f.selected v cmd count [] := by
  obtain ⟨_, _, noResult⟩ := inv
  rcases ready with phase | phase
  · have empty : f.result = [] := noResult (by rw [phase]; decide)
    rw [Fdc.writeData_none phase, Fdc.select_valid valid empty]
  · rw [Fdc.writeData_result phase, Fdc.select_valid valid (f := f.toNone) rfl]; rfl

end

section
variable (f : Fdc) (v : Byte) (cmd : FdcCommand)

theorem Fdc.selected_phase_command {n : Nat} (missing : 0 < n) (params : List Byte) :
    (f.selected v cmd n params).phase = .command := if_pos missing

theorem Fdc.selected_phase_execution (params : List Byte) : (f.selected v cmd 0 params).phase = .execution := rfl

theorem Fdc.execute_selected (n : Nat) (params : List Byte) : (f.selected v cmd n params).execute =
    { f.selected v cmd n params with
      hstate := (Config.fdcHandler f.hstate v params).1
      result := (Config.fdcHandler f.hstate v params).2
      phase := .result } := rfl

/-- A parameter is received where one is still to come. -/
theorem Fdc.writeData_selected (n : Nat) (params : List Byte) (b : Byte) :
    (f.selected v cmd (n + 1) params).writeData b = f.selected v cmd n (params ++ [b]) := by
  rw [Fdc.writeData_command (f.selected_phase_command v cmd n.succ_pos params)]
  cases n <;> rfl

/-- Parameters are received one by one, as long as no more are written than are to come. -/
theorem Fdc.foldl_writeByte_selected (n : Nat) (received params : List Byte) :
    params.foldl (fun h b => h.writeByte 0x3F5 b) (f.selected v cmd (n + params.length) received) =
      f.selected v cmd n (received ++ params) := by
  induction params generalizing received with
  | nil => rw [List.foldl_nil, List.length_nil, Nat.add_zero, List.append_nil]
  | cons b params ih =>
    rw [List.foldl_cons, List.length_cons, ← Nat.add_assoc, Fdc.writeByte_data, Fdc.writeData_selected, ih,
      List.append_assoc, List.singleton_append]

end

/-- Settles O54: opcode and parameters lead to `Fdc.selected` with none to come, where each access of the data register is
`Fdc.execute`. -/
theorem fdcProtocol : Obligations.FdcProtocol := by
  intro f v params x cmd count inv ready valid complete g out
  have start : f.writeByte 0x3F5 v = f.selected v cmd count [] :=
    (f.writeByte_data v).trans (Fdc.writeData_valid valid inv ready)
  have full : g = f.selected v cmd 0 params := by
    have received := f.foldl_writeByte_selected v cmd 0 [] params
    rwa [Nat.zero_add, complete, ← start, List.nil_append] at received
  have phase : g.phase = .execution := by rw [full, Fdc.selected_phase_execution]
  have written : g.writeByte 0x3F5 x = g.execute := (g.writeByte_data x).trans (Fdc.writeData_execution phase)
  have read : g.readByte 0x3F5 = (none, g.execute) := g.readByte_data.trans (Fdc.readData_execution phase)
  have shorter (k : Nat) (below : k < count) :
      ((params.take k).foldl (fun h b => h.writeByte 0x3F5 b) (f.writeByte 0x3F5 v)).phase = .command := by
    have received := f.foldl_writeByte_selected v cmd (count - k) [] (params.take k)
    rw [List.length_take_of_le (by omega), Nat.sub_add_cancel below.le, ← start] at received
    rw [received, Fdc.selected_phase_command f v cmd (Nat.sub_pos_of_lt below)]
  rw [written, read, full, Fdc.execute_selected]
  exact ⟨rfl, rfl, rfl, rfl, rfl, shorter, rfl, rfl, rfl, rfl, rfl⟩

/-! ## The tables -/

/-- The parameter counts of the command table (60_exceptions.md R558). -/
theorem fdcCommand_count (c : Nat) : (fdcCommand c).map (fun e => e.2) =
    if c ∈ [0x02, 0x05, 0x06, 0x09, 0x0C, 0x11, 0x19, 0x1D] then some 8 else if c = 0x03 then some 2
    else if c ∈ [0x04, 0x07, 0x0A, 0x0F] then some 1 else if c = 0x08 then some 0 else if c = 0x0D then some 5
    else none := by
  unfold fdcCommand
  split
  case h_16 => simp_all
  all_goals rfl

/-- The size codes 0 to 3 have a size, and no other (60_exceptions.md R560). -/
theorem sectorSize_eq (n : Byte) : sectorSize n = if n.toNat ≤ 3 then some (128 * 2 ^ n.toNat) else none := by
  rw [sectorSize]
  split
  case h_5 => simp only [imp_false] at *; rw [if_neg (by omega)]
  all_goals next code => rw [code]; rfl

/-- Settles O55: the registers access by access, and the two tables. -/
theorem fdcRegisters : Obligations.FdcRegisters := by
  intro f v
  obtain ⟨stored, logged⟩ := f.writeDor_dor_log v
  refine ⟨?msr, f.writeByte_msr v, f.readByte_dor, fun phase _ _ => Fdc.readData_result_cons phase,
    Fdc.readData_result_nil, Fdc.readData_waiting, fun phase invalid => ?invalid, stored, logged, fun level => ?reset,
    Fdc.writeDor_of_not_resetLevel, fun _ => rfl, fdcCommand_count, sectorSize_eq v⟩
  case msr => rw [f.readByte_msr]; cases f.phase <;> rfl
  case invalid => exact (Fdc.writeData_none phase).trans (Fdc.select_invalid invalid)
  case reset => rw [f.writeByte_dor, Fdc.writeDor_of_resetLevel level]; exact ⟨rfl, rfl, rfl⟩

end Sys2Proof.Machine
end

section
/-! The host's register calls (70_reset_and_hazards.md R610, R611). -/

namespace Sys2Proof.Machine

theorem State.seg_setSeg_ne (s : State) {g x : Seg} (h : x ≠ g) (v : Word) : (s.setSeg g v).seg x = s.seg x := by
  rw [State.seg_setSeg, if_neg h]

/-- A write of a segment register other than CS flushes nothing. -/
theorem State.call_writeSeg_of_ne_cs (s : State) {g : Seg} (h : g ≠ .cs) (v : Word) :
    s.call (.writeSeg g v) = .done { s with segs := (s.setSeg g v).segs, reply := .nothing } := by
  cases g with
  | cs => exact absurd rfl h
  | es | ss | ds => rfl

/-- Settles O58: a read is `State.readRegister`, and a write `State.setReg16`, `State.setSeg`, `State.jump` or
`State.writeFlags`. -/
theorem hostRegisters : Obligations.HostRegisters := by
  intro s rest r v at' back done
  refine ⟨rfl, fun _ => rfl, rfl, rfl, ⟨_, rfl, ?gpr⟩, fun g notCs => ?seg, ⟨_, rfl, ?cs⟩,
    ⟨_, rfl, ?ip⟩, rfl⟩
  case gpr => exact ⟨s.reg16_setReg16_self r v, fun _ other => s.reg16_setReg16_ne other v, rfl⟩
  case seg =>
    exact ⟨_, congrArg Called.outcome (State.call_writeSeg_of_ne_cs { s with agenda := rest } notCs v),
      State.seg_setSeg_self _ g v, fun _ other => State.seg_setSeg_ne _ other v, rfl⟩
  case cs => exact ⟨rfl, fun _ other => s.seg_setSeg_ne other v, State.jump_landsAt _ _, rfl⟩
  case ip => exact ⟨State.jump_landsAt _ _, rfl⟩

end Sys2Proof.Machine
end
